-- ==== Sys2Proof/Word.lean ====
section
/-! DEFINITION. The two word types of the TW48: the byte of a frame and the tick of the Tick Counter. -/

namespace Sys2Proof

/-- One byte of a frame (chapter 10.2). -/
abbrev Byte := BitVec 8

/-- A value of the Tick Counter, a 32-bit count of milliseconds that wraps (R180). -/
abbrev Tick := BitVec 32

/-- The interval from tick `t` to tick `now`: their difference taken as a signed 32-bit value
(00_scope.md, Conventions, "Ticks"). -/
def sinceTick (now t : Tick) : Int := (now - t).toInt

end Sys2Proof
end

