-- ==== Sys2Proof/Config.lean ====
section
/-! DEFINITION. The values the manual leaves open. -/

namespace Sys2Proof

/-- A free value: the bytes a `peek` reply carries in places for which chapter 10.8 states no value
(the number of a field that is absent, the cell count of a PLAIN bay). It has no body, so nothing can be
proved of it. It is applied to the counter `Records.unstated`, which each use advances (notes/assumptions/2.md). -/
opaque Config.freeByte : Nat → Byte

end Sys2Proof
end

