-- ==== Sys2Proof/Syntax.lean ====
section
/-! DEFINITION. The commands of the TW48: one constructor for each row of spec/opcode_table.json.

A request takes effect from the receive queue of its port (R174, R175), so a request's command names the port
alone: its operands are the body of the oldest waiting frame (Sys2Proof/Decode.lean). An event of a line, a
port or an expiry carries what the event brings. -/

namespace Sys2Proof

/-- The two ports (R172). -/
inductive Port where
  | openPort
  | assured
  deriving DecidableEq, Repr

/-- The levels of the discrete input lines as they stand when the part starts (R131, R138, R144, R153, R172). -/
structure Pins where
  /-- ESTOP asserted. -/
  estop : Bool
  /-- MAINT_KEY asserted. -/
  maintKey : Bool
  /-- STORM asserted. -/
  storm : Bool
  /-- COND0 to COND7, line n in bit n. -/
  cond : BitVec 8
  /-- RATE high. -/
  rate : Bool
  deriving DecidableEq, Repr

/-- What ends an Open Port frame short (R173). -/
inductive ShortCause where
  /-- More than 5 ms between two of its bytes. -/
  | gap
  /-- A character without its stop bit. -/
  | noStopBit
  deriving DecidableEq, Repr

/-- The commands, in the order of the table. -/
inductive Instr where
  /-- POWER_ON (R179): power is applied, or the RESET line is released, with the input lines at `pins`. -/
  | powerOn (pins : Pins)
  /-- RESET_ASSERTED (R179). -/
  | resetAsserted
  /-- FRAME_RECEIVED (R173): port `p` has assembled the whole frame `bytes`, from its start byte to its CRC. -/
  | frameReceived (p : Port) (bytes : List Byte)
  /-- FRAME_LENGTH_FAULT (R173): the length byte of port `p`'s frame is `n`, above 120. -/
  | frameLengthFault (p : Port) (n : Byte)
  /-- CHARACTER_GAP_EXPIRY (R173), Open Port. -/
  | characterGapExpiry (cause : ShortCause)
  /-- ASSURED_TRANSFER_END (R176): SEL is released. -/
  | assuredTransferEnd
  /-- REPLY_SENT (R176): the last byte of port `p`'s oldest waiting reply has left. -/
  | replySent (p : Port)
  /-- REPORT (R32). -/
  | report (p : Port)
  /-- ASK (R77). -/
  | ask (p : Port)
  /-- EXTEND (R82). -/
  | extend (p : Port)
  /-- TRIM (R84). -/
  | trim (p : Port)
  /-- RELEASE (R86). -/
  | release (p : Port)
  /-- CONFIRM (R87). -/
  | confirm (p : Port)
  /-- HOLD (R151). -/
  | hold (p : Port)
  /-- UNHOLD (R152). -/
  | unhold (p : Port)
  /-- CLEAR (R159). -/
  | clear (p : Port)
  /-- WIND (R135). -/
  | wind (p : Port)
  /-- PEEK (R177). -/
  | peek (p : Port)
  /-- NOTICES (R168). -/
  | notices (p : Port)
  /-- MARKS (R22). -/
  | marks (p : Port)
  /-- SETRUN (R12). -/
  | setrun (p : Port)
  /-- SETBAY (R13). -/
  | setbay (p : Port)
  /-- SETBAY_TRUNCATE (R14). -/
  | setbayTruncate (p : Port)
  /-- SETZONE (R15). -/
  | setzone (p : Port)
  /-- SETCAR, configured yes (R27). -/
  | setcar (p : Port)
  /-- SETCAR_CONFIGURED_NO (R28). -/
  | setcarConfiguredNo (p : Port)
  /-- LOCK (R18). -/
  | lock (p : Port)
  /-- UNLOCK (R20). -/
  | unlock (p : Port)
  /-- SERVICE (R16). -/
  | service (p : Port)
  /-- CEILING (R17). -/
  | ceiling (p : Port)
  /-- SETWIND (R137). -/
  | setwind (p : Port)
  /-- COND (R132). -/
  | cond (p : Port)
  /-- MASK (R169). -/
  | mask (p : Port)
  /-- MAINT (R145). -/
  | maint (p : Port)
  /-- ENDMAINT (R146). -/
  | endmaint (p : Port)
  /-- RESTORE (R161). -/
  | restore (p : Port)
  /-- RESTART (R178). -/
  | restart (p : Port)
  /-- ESTOP_ASSERTED (R153). -/
  | estopAsserted
  /-- ESTOP_RELEASED (R154). -/
  | estopReleased
  /-- MAINT_KEY_RELEASED (R147). -/
  | maintKeyReleased
  /-- MAINT_KEY_ASSERTED (R144). -/
  | maintKeyAsserted
  /-- STORM_ASSERTED (R138). -/
  | stormAsserted
  /-- STORM_RELEASED (R138). -/
  | stormReleased
  /-- COND_LINE_CHANGE (R131): line COND`n` is now asserted or not. -/
  | condLineChange (n : Fin 8) (asserted : Bool)
  /-- MUTE_EXPIRY (R41) of carriage `c`. -/
  | muteExpiry (c : Fin 16)
  /-- WARRANT_EXPIRY (R102) of the warrant in `slot`. -/
  | warrantExpiry (slot : Fin 48)
  /-- WIND_TIMEOUT (R139). -/
  | windTimeout
  /-- BYTE_RECEIVED (R173): byte `b` arrives on port `p`. -/
  | byteReceived (p : Port) (b : Byte)
  /-- SEL_ASSERTED (R176): an Assured Port transfer starts. -/
  | selAsserted
  /-- UNKNOWN_REQUEST_CODE (R175). -/
  | unknownRequestCode (p : Port)
  /-- TICK (R180): one millisecond. -/
  | tick
  deriving DecidableEq, Repr

end Sys2Proof
end

