-- ==== Sys2Proof/WellFormed.lean ====
section
/-! DEFINITION. Which commands name an event that can occur at all: the bounds that the operand types do not
already hold. A command that is not well formed is no event, and exec leaves the state as it is
(notes/assumptions/4.md). -/

namespace Sys2Proof

/-- `bytes` is a whole request frame, but for its CRC: the start byte 0xA5, a length byte n of 0 to 120, and
n + 7 bytes in all (chapter 10.2, R173). -/
def wholeFrame : List Byte → Bool
  | start :: n :: rest => start == 0xA5 && decide (n.toNat ≤ 120) && decide (rest.length = n.toNat + 5)
  | _ => false

/-- A length byte that ends its frame with fault LENGTH (R173). -/
def lengthTooLong (n : Byte) : Bool := decide (120 < n.toNat)

/-- The command names an event of the manual. -/
def Instr.wellFormed : Instr → Bool
  | .frameReceived _ bytes => wholeFrame bytes
  | .frameLengthFault _ n => lengthTooLong n
  | _ => true

end Sys2Proof
end

