-- ==== Sys2Proof/Decode.lean ====
section
/-! DEFINITION. Numbers, CRC and request bodies of the frames (chapter 10.2, 10.5): how a body's bytes give the
operands of a request, the body each operand list is sent as, and decodeTableWord. -/

namespace Sys2Proof

/-! ## Numbers in frames (10.2) -/

/-- A number of `k` bytes, high byte first. -/
def be (k x : Nat) : List Byte :=
  match k with
  | 0 => []
  | k + 1 => BitVec.ofNat 8 (x / 256 ^ k) :: be k x

/-- The number that bytes give, high byte first. -/
def number (bytes : List Byte) : Nat := bytes.foldl (fun acc b => acc * 256 + b.toNat) 0

/-- The `k`-byte number at offset `off` of a body. -/
def field (body : List Byte) (off k : Nat) : Nat := number ((body.drop off).take k)

/-- The signed value of a `k`-byte number in two's complement. -/
def asSigned (k x : Nat) : Int := if 2 * x < 256 ^ k then (x : Int) else (x : Int) - (256 ^ k : Nat)

/-- A signed number of `k` bytes in two's complement, high byte first. -/
def beSigned (k : Nat) (x : Int) : List Byte := be k (x % (256 ^ k : Nat)).toNat

/-! ## CRC (10.2) -/

/-- One bit of the CRC with polynomial 0x1021, not reflected. -/
def crcBit (c : BitVec 16) : BitVec 16 := if c.msb then (c <<< 1) ^^^ 0x1021 else c <<< 1

/-- One byte of the CRC. -/
def crcByte (c : BitVec 16) (b : Byte) : BitVec 16 :=
  crcBit (crcBit (crcBit (crcBit (crcBit (crcBit (crcBit (crcBit (c ^^^ (b.setWidth 16 <<< 8)))))))))

/-- The CRC-16 of a string of bytes, initial value 0xFFFF, no final inversion. -/
def crc16 (bytes : List Byte) : BitVec 16 := bytes.foldl crcByte 0xFFFF

/-- A frame's bytes: `start`, the body length, the three bytes that follow it, the body and the CRC over all but
the start byte (10.2). -/
def frameBytes (start b2 b3 b4 : Byte) (body : List Byte) : List Byte :=
  let inner := BitVec.ofNat 8 body.length :: b2 :: b3 :: b4 :: body
  start :: inner ++ be 2 (crc16 inner).toNat

/-- The CRC field of a whole frame matches its bytes (R173). -/
def crcMatches (bytes : List Byte) : Bool :=
  be 2 (crc16 ((bytes.drop 1).take (bytes.length - 3))).toNat == bytes.drop (bytes.length - 2)

/-! ## Request bodies (10.5) -/

/-- `report`: carriage, positions, speed. -/
structure ReportBody where
  carriage : Nat
  positions : List Nat
  speed : Int
  deriving DecidableEq, Repr

/-- Length 3 + 3k, k of 1 to 8. -/
def decodeReport (body : List Byte) : Option ReportBody :=
  let k := body.length / 3 - 1
  if body.length = 3 + 3 * k ∧ 1 ≤ k ∧ k ≤ 8 then
    some { carriage := field body 0 1, positions := (List.range k).map (fun i => field body (1 + 3 * i) 3),
           speed := asSigned 2 (field body (1 + 3 * k) 2) }
  else none

/-- The body a `report` is sent as. -/
def encodeReport (r : ReportBody) : List Byte :=
  be 1 r.carriage ++ r.positions.flatMap (be 3) ++ beSigned 2 r.speed

/-- `ask`: carriage, target, class, lifetime. -/
structure AskBody where
  carriage : Nat
  target : Nat
  cls : Nat
  lifetime : Nat
  deriving DecidableEq, Repr

/-- Length 8. -/
def decodeAsk (body : List Byte) : Option AskBody :=
  if body.length = 8 then
    some { carriage := field body 0 1, target := field body 1 3, cls := field body 4 1, lifetime := field body 5 3 }
  else none

/-- The body an `ask` is sent as. -/
def encodeAsk (r : AskBody) : List Byte := be 1 r.carriage ++ be 3 r.target ++ be 1 r.cls ++ be 3 r.lifetime

/-- `extend` and `trim`: handle and a point, the new target or the new limit. -/
structure PointBody where
  slot : Nat
  generation : Nat
  point : Nat
  deriving DecidableEq, Repr

/-- Length 5. -/
def decodePoint (body : List Byte) : Option PointBody :=
  if body.length = 5 then
    some { slot := field body 0 1, generation := field body 1 1, point := field body 2 3 }
  else none

/-- The body an `extend` or a `trim` is sent as. -/
def encodePoint (r : PointBody) : List Byte := be 1 r.slot ++ be 1 r.generation ++ be 3 r.point

/-- `release` and `confirm`: a handle. -/
structure HandleBody where
  slot : Nat
  generation : Nat
  deriving DecidableEq, Repr

/-- Length 2. -/
def decodeHandle (body : List Byte) : Option HandleBody :=
  if body.length = 2 then some { slot := field body 0 1, generation := field body 1 1 } else none

/-- The body a `release` or a `confirm` is sent as. -/
def encodeHandle (r : HandleBody) : List Byte := be 1 r.slot ++ be 1 r.generation

/-- `hold`, `clear`, `maint`, `endmaint` and `restore`: one byte. -/
def decodeByte (body : List Byte) : Option Nat :=
  if body.length = 1 then some (field body 0 1) else none

/-- The body of a request of one byte. -/
def encodeByte (x : Nat) : List Byte := be 1 x

/-- `unhold`: carriage and cause field; `marks`: run and mode; `cond`: condition and value. -/
structure PairBody where
  fst : Nat
  snd : Nat
  deriving DecidableEq, Repr

/-- Length 2. -/
def decodePair (body : List Byte) : Option PairBody :=
  if body.length = 2 then some { fst := field body 0 1, snd := field body 1 1 } else none

/-- The body of a request of two bytes. -/
def encodePair (r : PairBody) : List Byte := be 1 r.fst ++ be 1 r.snd

/-- `wind`: mean and gust. -/
structure WindBody where
  mean : Nat
  gust : Nat
  deriving DecidableEq, Repr

/-- Length 4. -/
def decodeWind (body : List Byte) : Option WindBody :=
  if body.length = 4 then some { mean := field body 0 2, gust := field body 2 2 } else none

/-- The body a `wind` is sent as. -/
def encodeWind (r : WindBody) : List Byte := be 2 r.mean ++ be 2 r.gust

/-- `peek`: subject and two arguments; `service`: run, bay and value. -/
structure TripleBody where
  fst : Nat
  snd : Nat
  thd : Nat
  deriving DecidableEq, Repr

/-- Length 3. -/
def decodeTriple (body : List Byte) : Option TripleBody :=
  if body.length = 3 then some { fst := field body 0 1, snd := field body 1 1, thd := field body 2 1 } else none

/-- The body of a request of three bytes. -/
def encodeTriple (r : TripleBody) : List Byte := be 1 r.fst ++ be 1 r.snd ++ be 1 r.thd

/-- `notices`: no fields. -/
def decodeEmpty (body : List Byte) : Option Unit := if body.length = 0 then some () else none

/-- `lock`, `unlock` and `restart`: any body, its bytes ignored (R175). -/
def decodeIgnored (_ : List Byte) : Option Unit := some ()

/-- `setrun`. -/
structure SetRunBody where
  run : Nat
  defined : Nat
  closeDir : Nat
  exposure : Nat
  clearance : Nat
  deriving DecidableEq, Repr

/-- Length 6. -/
def decodeSetRun (body : List Byte) : Option SetRunBody :=
  if body.length = 6 then
    some { run := field body 0 1, defined := field body 1 1, closeDir := field body 2 1, exposure := field body 3 1,
           clearance := field body 4 2 }
  else none

/-- The body a `setrun` is sent as. -/
def encodeSetRun (r : SetRunBody) : List Byte :=
  be 1 r.run ++ be 1 r.defined ++ be 1 r.closeDir ++ be 1 r.exposure ++ be 2 r.clearance

/-- `setbay`; `length` is the bay length of a PLAIN bay and the cell length of a CELLED one. -/
structure SetBayBody where
  run : Nat
  bay : Nat
  kind : Nat
  length : Nat
  count : Nat
  ceiling : Nat
  auto : Nat
  operator : Nat
  maintenance : Nat
  emergency : Nat
  inService : Nat
  entryCheck : Nat
  condition : Nat
  zone : Nat
  deriving DecidableEq, Repr

/-- Length 16. -/
def decodeSetBay (body : List Byte) : Option SetBayBody :=
  if body.length = 16 then
    some { run := field body 0 1, bay := field body 1 1, kind := field body 2 1, length := field body 3 2,
           count := field body 5 1, ceiling := field body 6 2, auto := field body 8 1, operator := field body 9 1,
           maintenance := field body 10 1, emergency := field body 11 1, inService := field body 12 1,
           entryCheck := field body 13 1, condition := field body 14 1, zone := field body 15 1 }
  else none

/-- The body a `setbay` is sent as. -/
def encodeSetBay (r : SetBayBody) : List Byte :=
  be 1 r.run ++ be 1 r.bay ++ be 1 r.kind ++ be 2 r.length ++ be 1 r.count ++ be 2 r.ceiling ++ be 1 r.auto ++
    be 1 r.operator ++ be 1 r.maintenance ++ be 1 r.emergency ++ be 1 r.inService ++ be 1 r.entryCheck ++
    be 1 r.condition ++ be 1 r.zone

/-- `setzone`. -/
structure SetZoneBody where
  zone : Nat
  defined : Nat
  parent : Nat
  overriding : Nat
  auto : Nat
  operator : Nat
  maintenance : Nat
  emergency : Nat
  ceiling : Nat
  deriving DecidableEq, Repr

/-- Length 10. -/
def decodeSetZone (body : List Byte) : Option SetZoneBody :=
  if body.length = 10 then
    some { zone := field body 0 1, defined := field body 1 1, parent := field body 2 1, overriding := field body 3 1,
           auto := field body 4 1, operator := field body 5 1, maintenance := field body 6 1,
           emergency := field body 7 1, ceiling := field body 8 2 }
  else none

/-- The body a `setzone` is sent as. -/
def encodeSetZone (r : SetZoneBody) : List Byte :=
  be 1 r.zone ++ be 1 r.defined ++ be 1 r.parent ++ be 1 r.overriding ++ be 1 r.auto ++ be 1 r.operator ++
    be 1 r.maintenance ++ be 1 r.emergency ++ be 2 r.ceiling

/-- `setcar` with a configured field other than no. -/
structure SetCarBody where
  carriage : Nat
  configured : Nat
  run : Nat
  offsets : List Int
  lowerReach : Nat
  upperReach : Nat
  maxSpeed : Nat
  creepSpeed : Nat
  deceleration : Nat
  reactionTime : Nat
  skewLimit : Nat
  reportInterval : Nat
  warningLead : Nat
  stopWindow : Nat
  threshold : Nat
  homeReference : Nat
  deriving DecidableEq, Repr

/-- Length 27 + 2c, where the truck count c is byte 3. -/
def decodeSetCar (body : List Byte) : Option SetCarBody :=
  let c := field body 3 1
  let at' := 4 + 2 * c
  if body.length = 27 + 2 * c then
    some { carriage := field body 0 1, configured := field body 1 1, run := field body 2 1,
           offsets := (List.range c).map (fun i => asSigned 2 (field body (4 + 2 * i) 2)),
           lowerReach := field body at' 2, upperReach := field body (at' + 2) 2, maxSpeed := field body (at' + 4) 2,
           creepSpeed := field body (at' + 6) 1, deceleration := field body (at' + 7) 2,
           reactionTime := field body (at' + 9) 2, skewLimit := field body (at' + 11) 2,
           reportInterval := field body (at' + 13) 2, warningLead := field body (at' + 15) 2,
           stopWindow := field body (at' + 17) 2, threshold := field body (at' + 19) 1,
           homeReference := field body (at' + 20) 3 }
  else none

/-- The body a `setcar` is sent as. -/
def encodeSetCar (r : SetCarBody) : List Byte :=
  be 1 r.carriage ++ be 1 r.configured ++ be 1 r.run ++ be 1 r.offsets.length ++ r.offsets.flatMap (beSigned 2) ++
    be 2 r.lowerReach ++ be 2 r.upperReach ++ be 2 r.maxSpeed ++ be 1 r.creepSpeed ++ be 2 r.deceleration ++
    be 2 r.reactionTime ++ be 2 r.skewLimit ++ be 2 r.reportInterval ++ be 2 r.warningLead ++ be 2 r.stopWindow ++
    be 1 r.threshold ++ be 3 r.homeReference

/-- `setcar` with configured no: any length from 2; the carriage alone is read (R26). -/
def decodeSetCarNo (body : List Byte) : Option Nat := if 2 ≤ body.length then some (field body 0 1) else none

/-- `ceiling`. -/
structure CeilingBody where
  run : Nat
  bay : Nat
  ceiling : Nat
  deriving DecidableEq, Repr

/-- Length 4. -/
def decodeCeiling (body : List Byte) : Option CeilingBody :=
  if body.length = 4 then
    some { run := field body 0 1, bay := field body 1 1, ceiling := field body 2 2 }
  else none

/-- The body a `ceiling` is sent as. -/
def encodeCeiling (r : CeilingBody) : List Byte := be 1 r.run ++ be 1 r.bay ++ be 2 r.ceiling

/-- `setwind`. -/
structure SetWindBody where
  breeze : Nat
  gale : Nat
  storm : Nat
  breezeCap : Nat
  galeCap : Nat
  timeout : Nat
  deriving DecidableEq, Repr

/-- Length 12. -/
def decodeSetWind (body : List Byte) : Option SetWindBody :=
  if body.length = 12 then
    some { breeze := field body 0 2, gale := field body 2 2, storm := field body 4 2, breezeCap := field body 6 2,
           galeCap := field body 8 2, timeout := field body 10 2 }
  else none

/-- The body a `setwind` is sent as. -/
def encodeSetWind (r : SetWindBody) : List Byte :=
  be 2 r.breeze ++ be 2 r.gale ++ be 2 r.storm ++ be 2 r.breezeCap ++ be 2 r.galeCap ++ be 2 r.timeout

/-- `mask`: fifteen values, non-zero is set. -/
def decodeMask (body : List Byte) : Option (List Bool) :=
  if body.length = 15 then some (body.map (fun b => b != 0)) else none

/-- The body a `mask` is sent as. -/
def encodeMask (masks : List Bool) : List Byte := masks.map (fun m => if m then 1 else 0)

/-! ## Request codes (10.5) -/

/-- The body is that of a `setbay` with kind TRUNCATE (R14). -/
def truncateBody (body : List Byte) : Bool := decide (body.length = 16) && decide (field body 2 1 = 3)

/-- The body is that of a `setcar` with configured no (R26). -/
def configuredNoBody (body : List Byte) : Bool := decide (2 ≤ body.length) && decide (field body 1 1 = 0)

/-- The command by which a frame of port `p` with this code and body takes effect (R175). -/
def commandOf (p : Port) (code : Byte) (body : List Byte) : Instr :=
  match code with
  | 0x01#8 => .report p
  | 0x02#8 => .ask p
  | 0x03#8 => .extend p
  | 0x04#8 => .trim p
  | 0x05#8 => .release p
  | 0x06#8 => .confirm p
  | 0x07#8 => .hold p
  | 0x08#8 => .unhold p
  | 0x09#8 => .clear p
  | 0x0A#8 => .wind p
  | 0x0B#8 => .peek p
  | 0x0C#8 => .notices p
  | 0x0D#8 => .marks p
  | 0x10#8 => .setrun p
  | 0x11#8 => if truncateBody body then .setbayTruncate p else .setbay p
  | 0x12#8 => .setzone p
  | 0x13#8 => if configuredNoBody body then .setcarConfiguredNo p else .setcar p
  | 0x20#8 => .lock p
  | 0x21#8 => .unlock p
  | 0x22#8 => .service p
  | 0x23#8 => .ceiling p
  | 0x24#8 => .setwind p
  | 0x25#8 => .cond p
  | 0x26#8 => .mask p
  | 0x27#8 => .maint p
  | 0x28#8 => .endmaint p
  | 0x29#8 => .restore p
  | 0x2A#8 => .restart p
  | _ => .unknownRequestCode p

/-- The port and the request code of a request's command (10.5); an event and an unknown code have none. -/
def Instr.request : Instr → Option (Port × Byte)
  | .report p => some (p, 0x01)
  | .ask p => some (p, 0x02)
  | .extend p => some (p, 0x03)
  | .trim p => some (p, 0x04)
  | .release p => some (p, 0x05)
  | .confirm p => some (p, 0x06)
  | .hold p => some (p, 0x07)
  | .unhold p => some (p, 0x08)
  | .clear p => some (p, 0x09)
  | .wind p => some (p, 0x0A)
  | .peek p => some (p, 0x0B)
  | .notices p => some (p, 0x0C)
  | .marks p => some (p, 0x0D)
  | .setrun p => some (p, 0x10)
  | .setbay p => some (p, 0x11)
  | .setbayTruncate p => some (p, 0x11)
  | .setzone p => some (p, 0x12)
  | .setcar p => some (p, 0x13)
  | .setcarConfiguredNo p => some (p, 0x13)
  | .lock p => some (p, 0x20)
  | .unlock p => some (p, 0x21)
  | .service p => some (p, 0x22)
  | .ceiling p => some (p, 0x23)
  | .setwind p => some (p, 0x24)
  | .cond p => some (p, 0x25)
  | .mask p => some (p, 0x26)
  | .maint p => some (p, 0x27)
  | .endmaint p => some (p, 0x28)
  | .restore p => some (p, 0x29)
  | .restart p => some (p, 0x2A)
  | _ => none

/-- The body's length is that of the table of 10.5 for the command (R175, check 2). -/
def Instr.lengthFits (i : Instr) (body : List Byte) : Bool :=
  let n := body.length
  match i with
  | .report _ => decide (n % 3 = 0 ∧ 6 ≤ n ∧ n ≤ 27)
  | .ask _ => n == 8
  | .extend _ => n == 5
  | .trim _ => n == 5
  | .release _ => n == 2
  | .confirm _ => n == 2
  | .hold _ => n == 1
  | .unhold _ => n == 2
  | .clear _ => n == 1
  | .wind _ => n == 4
  | .peek _ => n == 3
  | .notices _ => n == 0
  | .marks _ => n == 2
  | .setrun _ => n == 6
  | .setbay _ => n == 16
  | .setbayTruncate _ => n == 16
  | .setzone _ => n == 10
  | .setcar _ => n == 27 + 2 * field body 3 1
  | .setcarConfiguredNo _ => decide (2 ≤ n)
  | .lock _ => true
  | .unlock _ => true
  | .service _ => n == 3
  | .ceiling _ => n == 4
  | .setwind _ => n == 12
  | .cond _ => n == 2
  | .mask _ => n == 15
  | .maint _ => n == 1
  | .endmaint _ => n == 1
  | .restore _ => n == 1
  | .restart _ => true
  | _ => false

/-- No row of spec/opcode_table.json gives bits, so no word spells a command. -/
def decodeTableWord (_nbits _w : Nat) : Option Instr := none

end Sys2Proof
end

