-- ==== Sys2Proof/Machine/State.lean ====
section
/-! DEFINITION. The state of the TW48: every record, queue, counter, mode and line the manual gives it, as plain
data, and the machine right after reset. INVENTORY.md lists each piece with its rule and reset value. -/

namespace Sys2Proof.Machine

/-! ## Names -/

/-- Runs 0 to 7 (R1). -/
abbrev RunId := Fin 8
/-- Zones 0 to 31 (R3). -/
abbrev ZoneId := Fin 32
/-- Carriages 0 to 15 (R23). -/
abbrev CarId := Fin 16
/-- Slots 0 to 47 of the Warrant Table (R63). -/
abbrev SlotId := Fin 48
/-- Conditions 0 to 15 (R131). -/
abbrev CondId := Fin 16

/-! ## The track map (chapter 1) -/

/-- Direction of travel; UP is toward higher coordinates. -/
inductive Dir where
  | up
  | down
  deriving DecidableEq, Repr

/-- The four classes, in rising order of authority (R63). -/
inductive Cls where
  | auto
  | operator
  | maintenance
  | emergency
  deriving DecidableEq, Repr

/-- The access of a unit for a class (R6). -/
inductive Access where
  | deny
  | creep
  | full
  deriving DecidableEq, Repr

/-- One access entry for each class (R2, R3). -/
structure AccessSet where
  auto : Access
  operator : Access
  maintenance : Access
  emergency : Access
  deriving DecidableEq, Repr

/-- A PLAIN bay with its length, or a CELLED bay with its cell length and cell count (R2), in mm. -/
inductive BayShape where
  | plain (length : Nat)
  | celled (cellLength cellCount : Nat)
  deriving DecidableEq, Repr

/-- A bay record (R2). The start is derived from the bays before it. -/
structure Bay where
  shape : BayShape
  ceiling : Nat
  access : AccessSet
  inService : Bool
  entryCheck : Bool
  condition : Option CondId
  zone : Option ZoneId
  traversed : Bool
  stoppedIn : Bool
  deriving DecidableEq, Repr

/-- A run record with its bays in position order (R1). Bay count and length are derived. -/
structure Run where
  defined : Bool
  bays : List Bay
  closeDir : Dir
  exposed : Bool
  clearance : Nat
  deriving DecidableEq, Repr

/-- A zone record (R3), but for its holder, which stands in `Fleet.holders`. -/
structure Zone where
  defined : Bool
  parent : Option ZoneId
  access : Option AccessSet
  ceiling : Option Nat
  deriving DecidableEq, Repr

/-- The Map Store: the run, bay and zone records and the lock state (chapter 1). -/
structure TrackMap where
  runs : Vector Run 8
  zones : Vector Zone 32
  locked : Bool
  deriving DecidableEq, Repr

/-! ## Warrants (chapter 4) -/

/-- A warrant's name: its slot and the generation under which the slot was issued (R64). -/
structure Handle where
  slot : SlotId
  generation : Byte
  deriving DecidableEq, Repr

/-- The port of the request that created a warrant, and for the Open Port its station (R63). -/
inductive Origin where
  | openPort (station : Byte)
  | assured
  deriving DecidableEq, Repr

/-- The states of a live warrant (R63). -/
inductive WarrantState where
  | granted
  | active
  | suspended
  deriving DecidableEq, Repr

/-- The reasons a warrant retires with (R89), in the order of 10.7. -/
inductive Reason where
  | complete
  | released
  | expired
  | tripped
  | cutOff
  | overtaken
  | resumeFail
  | condLost
  | wind
  | keyLost
  | estop
  | restart
  deriving DecidableEq, Repr

/-- A live warrant's record (R63); its handle is its slot with the slot's generation counter. -/
structure Warrant where
  carriage : CarId
  origin : Origin
  cls : Cls
  dir : Dir
  target : Int
  limit : Int
  rear : Int
  confirm : Option Int
  ceiling : Nat
  state : WarrantState
  expiry : Option Tick
  lifetime : Nat
  retireOnStop : Option Reason
  warned : Bool
  deriving DecidableEq, Repr

/-- A slot: its generation counter (R64) and the live warrant in it, or none when free. -/
structure Slot where
  generation : Byte
  warrant : Option Warrant
  deriving DecidableEq, Repr

/-- An entry of a run's occupancy list (R67). -/
structure Entry where
  carriage : CarId
  handle : Handle
  firstUnit : Nat
  lastUnit : Nat
  deriving DecidableEq, Repr

/-! ## Carriages (chapters 2 and 8) -/

/-- The five carriage states (R25). `unconfigured` is configured no. -/
inductive CarState where
  | unconfigured
  | offline
  | standing
  | moving
  | tripped
  deriving DecidableEq, Repr

/-- Trip kinds (R155), in the order of 10.7. -/
inductive TripKind where
  | skew
  | offRun
  | intrusion
  | overrun
  | brakeCurve
  | overspeed
  | reverse
  | unwarranted
  | condition
  | service
  deriving DecidableEq, Repr

/-- Hold causes (R149), in the order of 10.7. -/
inductive Cause where
  | trip
  | mute
  | estop
  | openHold
  | assuredHold
  | reversal
  | keyLost
  deriving DecidableEq, Repr

/-- A hold set: each of the seven causes at most once (R149). -/
structure HoldSet where
  trip : Bool
  mute : Bool
  estop : Bool
  openHold : Bool
  assuredHold : Bool
  reversal : Bool
  keyLost : Bool
  deriving DecidableEq, Repr

/-- The configuration part of a carriage record (R23). The truck count is the number of offsets. -/
structure CarConfig where
  run : RunId
  offsets : List Int
  lowerReach : Nat
  upperReach : Nat
  maxSpeed : Nat
  creepSpeed : Nat
  deceleration : Nat
  reactionTime : Nat
  skewLimit : Nat
  reportInterval : Nat
  warningLead : Nat
  stopWindow : Nat
  threshold : Nat
  homeReference : Int
  deriving DecidableEq, Repr

/-- The last report: positions, clamped speed and the tick at which it was taken (R24). -/
structure LastReport where
  positions : List Nat
  speed : Int
  tick : Tick
  deriving DecidableEq, Repr

/-- Reference, skew and the two ends of the extent (R33, R34). -/
structure Pose where
  reference : Int
  skew : Nat
  lower : Int
  upper : Int
  deriving DecidableEq, Repr

/-- The trip record (R155). -/
structure TripRecord where
  kind : TripKind
  tick : Tick
  further : Nat
  deriving DecidableEq, Repr

/-- A carriage record (R23, R24). The present extent is derived (R34). -/
structure Carriage where
  cfg : CarConfig
  state : CarState
  mute : Bool
  last : Option LastReport
  pose : Option Pose
  front : Option Int
  trip : Option TripRecord
  tripCount : Nat
  level : Nat
  holds : HoldSet
  current : Option Handle
  /-- The suspension stack, oldest first (R116). -/
  stack : List Handle
  lastRetire : Option (Reason × Handle)
  deriving DecidableEq, Repr

/-! ## Wind (chapter 7) -/

/-- Wind states (R134), in the order of 10.7. -/
inductive WindState where
  | unknown
  | calm
  | breeze
  | gale
  | storm
  deriving DecidableEq, Repr

/-- The wind record (R134). -/
structure Wind where
  state : WindState
  mean : Option Nat
  gust : Option Nat
  lastTick : Option Tick
  breezeThreshold : Nat
  galeThreshold : Nat
  stormThreshold : Nat
  breezeCap : Nat
  galeCap : Nat
  timeout : Nat
  stormLine : Bool
  deriving DecidableEq, Repr

/-! ## Notices (chapter 9) -/

/-- What stops a grant walk (R70), in the order of the checks. -/
inductive Blocker where
  | service
  | ceiling
  | access
  | condition
  | wind
  | maint
  | zone
  | occupied
  | check
  deriving DecidableEq, Repr

/-- The source of a cut-back demand (R104). -/
inductive CutSource where
  | condition (n : CondId)
  | service
  | wind
  | estop
  | keyLost
  deriving DecidableEq, Repr

/-- Frame faults (R173). -/
inductive FrameFault where
  | crc
  | length
  | short
  deriving DecidableEq, Repr

/-- The value field of a notice's detail, one form for each of the fifteen kinds (R165). -/
inductive NoticeValue where
  | trip (kind : TripKind)
  | cutBack (source : CutSource)
  | expired (tick : Tick)
  | complete (limit : Int)
  | mute (tick : Tick)
  | wind (old new : WindState) (gust : Option Nat)
  | closeCall (entered : WindState) (reached : Nat)
  | condition (n : CondId) (value : Bool)
  | resumed (short : Bool) (blocker : Option Blocker)
  | resumeFail (reason : Reason) (blocker : Option Blocker)
  | keyLost (reached : Nat)
  | warning (limit : Int)
  | estop (reached : Nat)
  | downshift (level : Nat)
  | frameError (port : Port) (fault : FrameFault)
  deriving DecidableEq, Repr

/-- A notice's detail: carriage or none, handle or none, and the kind's value (R164). -/
structure Detail where
  carriage : Option CarId
  handle : Option Handle
  value : NoticeValue
  deriving DecidableEq, Repr

/-- A notice record (R164). -/
structure Notice where
  pending : Bool
  mask : Bool
  count : Nat
  detail : Option Detail
  deriving DecidableEq, Repr

/-! ## Ports and frames (chapter 10) -/

/-- A checked request frame waiting in a receive queue (R174): bytes 2, 3 and 4 of the frame and its body. -/
structure Frame where
  station : Byte
  tag : Byte
  code : Byte
  body : List Byte
  deriving DecidableEq, Repr

/-- Status codes (10.6). -/
inductive Status where
  | done
  | partially
  | clamped
  | badForm
  | badTarget
  | badState
  | noMove
  | portDenied
  | locked
  | unlocked
  | held
  | tripped
  | hasWarrant
  | tableFull
  | stackFull
  | blocked
  | stale
  | offline
  | notOwner
  | inUse
  | busy
  | notStopped
  | stillPresent
  | keyAbsent
  | mapFault
  | nothingPending
  deriving DecidableEq, Repr

/-- A formed reply waiting to be sent. `overflow` marks the BUSY reply of a frame that found the queue full,
which holds no queue place (R174). -/
structure Reply where
  station : Byte
  tag : Byte
  status : Status
  body : List Byte
  overflow : Bool
  deriving DecidableEq, Repr

/-- One port (R172 to R176). -/
structure PortState where
  /-- The frames that have not taken effect, oldest first. -/
  queue : List Frame
  /-- The formed replies not yet sent, oldest first. -/
  replies : List Reply
  /-- The bytes of the frame in progress; empty while hunting. -/
  assembling : List Byte
  /-- The tick of the last byte of the frame in progress, read on the Open Port alone (R173, R180). -/
  lastByte : Tick
  deriving DecidableEq, Repr

/-- An Assured Port transfer in progress (R172, R176). -/
structure Transfer where
  /-- The oldest waiting reply is being shifted out in this transfer. -/
  shifting : Bool
  /-- Bytes the master has clocked in this transfer. -/
  clocked : Nat
  /-- A whole frame has been shifted in; the bytes that follow it are dropped (R173). -/
  frameTaken : Bool
  deriving DecidableEq, Repr

/-! ## The state -/

/-- What the Warrant Table, the Carriage Table's trips and the Hold Unit read and never write: the clock, the
map, the conditions, the wind, the windows and the lines. -/
structure World where
  /-- The Tick Counter (R180). -/
  now : Tick
  map : TrackMap
  /-- Conditions 0 to 15; conditions 0 to 7 are the levels of COND0 to COND7 (R131). -/
  conditions : Vector Bool 16
  wind : Wind
  /-- The maintenance windows, open when true (R144). -/
  windows : Vector Bool 8
  /-- The key state, which is the level of MAINT_KEY (R144). -/
  keyPresent : Bool
  /-- The ESTOP line state (R153). -/
  estopLine : Bool
  deriving DecidableEq, Repr

/-- The living records of carriages, warrants and notices. -/
structure Fleet where
  cars : Vector Carriage 16
  slots : Vector Slot 48
  /-- One occupancy list for each run, in order (R67). -/
  occupancy : Vector (List Entry) 8
  /-- The holder of each zone (R3, R10). -/
  holders : Vector (Option CarId) 32
  /-- The notice records, by kind number (R164). -/
  notices : Vector Notice 15
  deriving DecidableEq, Repr

/-- Everything a request's rule reads and writes. -/
structure Records where
  world : World
  fleet : Fleet
  /-- The MODEL's own: how many free values have been used (notes/assumptions/2.md). -/
  unstated : Nat
  deriving DecidableEq, Repr

/-- The state of the TW48. -/
structure State where
  records : Records
  openPort : PortState
  assured : PortState
  /-- The Assured Port transfer in progress, or none while SEL is released. -/
  transfer : Option Transfer
  /-- The Open Port rate: RATE as sampled at the start, high for 921,600 bit/s (R172). -/
  rateHigh : Bool
  /-- The RESET line is asserted (R179). -/
  resetLine : Bool
  /-- The lines HOLD0 to HOLD15, asserted when true (R150). -/
  holdLines : Vector Bool 16
  /-- The ATTN line (R167). -/
  attn : Bool
  /-- The MODEL's own: the commands that are waiting, first in, first out (notes/assumptions/1.md). -/
  pending : List Instr
  deriving DecidableEq, Repr

/-- No command of the TW48 ends in a fault: the manual gives every command an effect in every state, so there
is no constructor. -/
inductive Fault where
  deriving DecidableEq, Repr

/-- Why a command is refused. -/
inductive Refusal where
  /-- Raised by `exec` for a command without a meaning yet (safe). No arm raises it: every command is modelled. -/
  | notModelled (mnemonic : String)
  deriving DecidableEq, Repr

/-! ## Reset -/

/-- The power-on record of a run (R1). -/
def Run.initial : Run := { defined := false, bays := [], closeDir := .up, exposed := false, clearance := 0 }

/-- The power-on record of a zone (R3). -/
def Zone.initial : Zone := { defined := false, parent := none, access := none, ceiling := none }

/-- No hold cause (R149). -/
def HoldSet.empty : HoldSet :=
  { trip := false, mute := false, estop := false, openHold := false, assuredHold := false, reversal := false,
    keyLost := false }

/-- The power-on configuration: zero or the least value of each field's range (R24; notes/assumptions/5.md). -/
def CarConfig.initial : CarConfig :=
  { run := 0, offsets := [0], lowerReach := 0, upperReach := 0, maxSpeed := 1, creepSpeed := 1,
    deceleration := 10, reactionTime := 0, skewLimit := 0, reportInterval := 50, warningLead := 0,
    stopWindow := 0, threshold := 2, homeReference := 0 }

/-- The power-on record of a carriage (R24). -/
def Carriage.initial : Carriage :=
  { cfg := CarConfig.initial, state := .unconfigured, mute := false, last := none, pose := none, front := none,
    trip := none, tripCount := 0, level := 0, holds := HoldSet.empty, current := none, stack := [],
    lastRetire := none }

/-- The power-on wind record with the STORM line released (R134). -/
def Wind.initial : Wind :=
  { state := .unknown, mean := none, gust := none, lastTick := none, breezeThreshold := 80, galeThreshold := 150,
    stormThreshold := 220, breezeCap := 300, galeCap := 100, timeout := 10000, stormLine := false }

/-- The power-on record of a notice kind (R171). -/
def Notice.initial : Notice := { pending := false, mask := false, count := 0, detail := none }

/-- The power-on world with every input line released. -/
def World.initial : World :=
  { now := 0, map := { runs := Vector.replicate 8 Run.initial, zones := Vector.replicate 32 Zone.initial, locked := false },
    conditions := Vector.replicate 16 false, wind := Wind.initial, windows := Vector.replicate 8 false,
    keyPresent := false, estopLine := false }

/-- The power-on carriages, warrants and notices (R24, R93, R171). -/
def Fleet.initial : Fleet :=
  { cars := Vector.replicate 16 Carriage.initial, slots := Vector.replicate 48 { generation := 0, warrant := none },
    occupancy := Vector.replicate 8 [], holders := Vector.replicate 32 none,
    notices := Vector.replicate 15 Notice.initial }

/-- A port at the start: empty queue, no reply, hunting (R179). -/
def PortState.initial : PortState := { queue := [], replies := [], assembling := [], lastByte := 0 }

/-- The machine right after reset, the RESET line released and every other input line released
(notes/assumptions/3.md): every HOLD line asserted, ATTN released. -/
def State.reset : State :=
  { records := { world := World.initial, fleet := Fleet.initial, unstated := 0 },
    openPort := PortState.initial, assured := PortState.initial, transfer := none, rateHigh := false,
    resetLine := false, holdLines := Vector.replicate 16 true, attn := false, pending := [] }

end Sys2Proof.Machine
end

