-- ==== Sys2Proof/Machine/Track.lean ====
section
/-! DEFINITION. What the Map Store derives from its records: translation, units, boundaries, chains, unit
attributes and conflict (chapter 1). -/

namespace Sys2Proof.Machine

/-- The number `k` as a member of a table of `n`, none when it is beyond it. -/
def inTable (n k : Nat) : Option (Fin n) := if h : k < n then some ⟨k, h⟩ else none

/-! ## Directions -/

/-- Position `a` lies beyond `b` in the direction: above it for UP, below it for DOWN. -/
def beyond (d : Dir) (a b : Int) : Bool :=
  match d with
  | .up => decide (b < a)
  | .down => decide (a < b)

/-- Position `a` lies at or beyond `b` in the direction. -/
def atOrBeyond (d : Dir) (a b : Int) : Bool := !beyond d b a

/-- The position one step further in the direction. -/
def onward (d : Dir) (x : Int) (by' : Int) : Int :=
  match d with
  | .up => x + by'
  | .down => x - by'

/-! ## Bays and units (R2, R4) -/

/-- The length of a bay: PLAIN as recorded, CELLED cell length × cell count (R2). -/
def Bay.length (b : Bay) : Nat :=
  match b.shape with
  | .plain l => l
  | .celled l n => l * n

/-- The number of units of a bay (R4). -/
def Bay.unitCount (b : Bay) : Nat :=
  match b.shape with
  | .plain _ => 1
  | .celled _ n => n

/-- A unit of a run: its bay, its unit number, its first position and its exclusive end (R4). -/
structure TrackUnit where
  bay : Nat
  num : Nat
  first : Int
  stop : Int
  deriving DecidableEq, Repr

/-- `count` units of length `len` in a row (R4). -/
def cellsFrom (bay num : Nat) (start : Int) (len : Nat) : Nat → List TrackUnit
  | 0 => []
  | count + 1 =>
    { bay := bay, num := num, first := start, stop := start + len } :: cellsFrom bay (num + 1) (start + len) len count

/-- The units of one bay (R4). -/
def bayUnits (bay num : Nat) (start : Int) (b : Bay) : List TrackUnit :=
  match b.shape with
  | .plain l => cellsFrom bay num start l 1
  | .celled l n => cellsFrom bay num start l n

/-- The units of bays laid end to end from `start` (R2, R4). -/
def unitsFrom (bay num : Nat) (start : Int) : List Bay → List TrackUnit
  | [] => []
  | b :: bs => bayUnits bay num start b ++ unitsFrom (bay + 1) (num + b.unitCount) (start + b.length) bs

/-- The units of a run in position order; an undefined run has none (R1, R4). -/
def Run.units (r : Run) : List TrackUnit := if r.defined then unitsFrom 0 0 0 r.bays else []

/-- The length of a run in mm; 0 when undefined (R1). -/
def Run.length (r : Run) : Nat := if r.defined then (r.bays.map Bay.length).sum else 0

/-- The last position of a run, length − 1 (R1). -/
def Run.last (r : Run) : Int := (r.length : Int) - 1

/-- The start of bay `b` (R2). -/
def Run.bayStart (r : Run) (b : Nat) : Nat := ((r.bays.take b).map Bay.length).sum

/-- Bay `b` of the run, none at or beyond the bay count. -/
def Run.bay (r : Run) (b : Nat) : Option Bay := r.bays[b]?

/-- The unit that contains position `x`, or none (R4). -/
def Run.unitAt (r : Run) (x : Int) : Option TrackUnit := r.units.find? (fun u => decide (u.first ≤ x ∧ x < u.stop))

/-- The units touched by the stretch `a` to `b` (R5). -/
def Run.touched (r : Run) (a b : Int) : List TrackUnit :=
  r.units.filter (fun u => decide (a ≤ b ∧ u.first ≤ b ∧ a ≤ u.stop - 1))

/-- A position brought onto the run: below 0 taken as 0, beyond the last position as the last. -/
def Run.clamp (r : Run) (x : Int) : Int := max 0 (min x r.last)

/-- The unit that contains `x`, or the end unit of the run on whose side `x` lies off it. -/
def Run.unitNear (r : Run) (x : Int) : Option TrackUnit := r.unitAt (r.clamp x)

/-- The near boundary of a unit for a direction (R5). -/
def TrackUnit.near (d : Dir) (u : TrackUnit) : Int :=
  match d with
  | .up => u.first
  | .down => u.stop - 1

/-- The far boundary of a unit for a direction (R5). -/
def TrackUnit.far (d : Dir) (u : TrackUnit) : Int :=
  match d with
  | .up => u.stop - 1
  | .down => u.first

/-- A position rounded out in a direction (R5). -/
def Run.roundOut (r : Run) (d : Dir) (x : Int) : Int :=
  if x < 0 then 0
  else if r.last < x then r.last
  else match r.unitAt x with
    | some u => u.far d
    | none => x

/-- The units between the units that hold `x` and `y`, both included, whichever lies lower. -/
def Run.between (r : Run) (x y : Int) : List TrackUnit :=
  match r.unitNear x, r.unitNear y with
  | some u, some v => r.units.filter (fun k => decide (min u.num v.num ≤ k.num ∧ k.num ≤ max u.num v.num))
  | _, _ => []

/-- The units in the order in which a direction meets them. -/
def inOrder (d : Dir) (us : List TrackUnit) : List TrackUnit :=
  match d with
  | .up => us
  | .down => us.reverse

/-! ## Chains and unit attributes (R3, R6 to R8) -/

/-- The zone and its ancestors, at most `fuel` of them (R3). -/
def chainFrom (zones : Vector Zone 32) : Nat → Option ZoneId → List ZoneId
  | 0, _ => []
  | _, none => []
  | fuel + 1, some z => z :: chainFrom zones fuel zones[z].parent

/-- The chain of a bay: that of its zone, at most 4 long on a locked map (R3). -/
def TrackMap.chain (m : TrackMap) (b : Bay) : List ZoneId := chainFrom m.zones 4 b.zone

/-- The entry of a class. -/
def AccessSet.entry (a : AccessSet) : Cls → Access
  | .auto => a.auto
  | .operator => a.operator
  | .maintenance => a.maintenance
  | .emergency => a.emergency

/-- The access of a bay's units for a class: that of the nearest zone of the chain with an override, else the
bay's own (R6). -/
def TrackMap.access (m : TrackMap) (b : Bay) (k : Cls) : Access :=
  (((m.chain b).findSome? (fun z => m.zones[z].access)).getD b.access).entry k

/-- The ceiling of a bay's units: the least of the bay's and every override of its chain (R7). -/
def TrackMap.ceiling (m : TrackMap) (b : Bay) : Nat :=
  (m.chain b).foldl (fun acc z => match m.zones[z].ceiling with
    | some c => min acc c
    | none => acc) b.ceiling

/-- The ceiling of a bay's units for one warrant (R8). -/
def TrackMap.ceilingFor (m : TrackMap) (b : Bay) (k : Cls) (creep : Nat) : Nat :=
  match m.access b k with
  | .creep => min (m.ceiling b) creep
  | _ => m.ceiling b

/-! ## Conflict (R9) -/

/-- Two units of one run conflict under its clearance (R9). -/
def unitsConflict (clearance : Nat) (a b : TrackUnit) : Bool :=
  decide (a.first < b.stop ∧ b.first < a.stop) ||
    decide (max (b.first - a.stop) (a.first - b.stop) < clearance)

end Sys2Proof.Machine
end

