-- ==== Sys2Proof/Machine/Flags.lean ====
section
/-! DEFINITION. Hold sets, notices and the lines that follow them: HOLD0 to HOLD15 and ATTN (chapters 8.1, 9). -/

namespace Sys2Proof.Machine

/-! ## Hold sets (R149) -/

/-- The cause is in the set. -/
def HoldSet.has (h : HoldSet) : Cause → Bool
  | .trip => h.trip
  | .mute => h.mute
  | .estop => h.estop
  | .openHold => h.openHold
  | .assuredHold => h.assuredHold
  | .reversal => h.reversal
  | .keyLost => h.keyLost

/-- The set with the cause in it or not. -/
def HoldSet.put (h : HoldSet) (v : Bool) : Cause → HoldSet
  | .trip => { h with trip := v }
  | .mute => { h with mute := v }
  | .estop => { h with estop := v }
  | .openHold => { h with openHold := v }
  | .assuredHold => { h with assuredHold := v }
  | .reversal => { h with reversal := v }
  | .keyLost => { h with keyLost := v }

/-- Adding a cause already present changes nothing (R149). -/
def HoldSet.add (h : HoldSet) (c : Cause) : HoldSet := h.put true c

/-- Removing a cause that is absent changes nothing (R149). -/
def HoldSet.remove (h : HoldSet) (c : Cause) : HoldSet := h.put false c

/-- No cause stands. -/
def HoldSet.isEmpty (h : HoldSet) : Bool :=
  !(h.trip || h.mute || h.estop || h.openHold || h.assuredHold || h.reversal || h.keyLost)

/-- A cause other than TRIP stands (R77, check 5). -/
def HoldSet.heldBeyondTrip (h : HoldSet) : Bool := !(h.remove .trip).isEmpty

/-- The carriage is configured (R25). -/
def Carriage.configured (k : Carriage) : Bool := k.state != .unconfigured

/-- The HOLD line of a carriage is asserted exactly when it is UNCONFIGURED or its hold set is not empty (R150). -/
def Carriage.heldLine (k : Carriage) : Bool := !k.configured || !k.holds.isEmpty

/-! ## Notices (R164 to R167) -/

/-- The kind number of a detail's value (R164). -/
def NoticeValue.kind : NoticeValue → Fin 15
  | .trip _ => 0
  | .cutBack _ => 1
  | .expired _ => 2
  | .complete _ => 3
  | .mute _ => 4
  | .wind _ _ _ => 5
  | .closeCall _ _ => 6
  | .condition _ _ => 7
  | .resumed _ _ => 8
  | .resumeFail _ _ => 9
  | .keyLost _ => 10
  | .warning _ => 11
  | .estop _ => 12
  | .downshift _ => 13
  | .frameError _ _ => 14

/-- The three steps of an occurrence on its kind's record (R166). -/
def Notice.occur (n : Notice) (d : Detail) : Notice :=
  { n with pending := true, count := min 255 (n.count + 1), detail := some d }

/-- A kind is visible while it is pending and masked in (R167). -/
def Notice.visible (n : Notice) : Bool := n.pending && n.mask

/-- An occurrence is handed to the Notice Unit (R166). -/
def Fleet.raise (F : Fleet) (d : Detail) : Fleet :=
  { F with notices := F.notices.set d.value.kind ((F.notices[d.value.kind]).occur d) }

/-- At least one kind is visible (R167). -/
def Fleet.attn (F : Fleet) : Bool := (List.finRange 15).any (fun k => (F.notices[k]).visible)

/-! ## The output lines -/

/-- HOLD0 to HOLD15 and ATTN follow the records in the same event (R150, R167). -/
def State.drive (s : State) : State :=
  { s with holdLines := Vector.ofFn (fun c => (s.records.fleet.cars[c]).heldLine), attn := s.records.fleet.attn }

end Sys2Proof.Machine
end

