-- ==== Sys2Proof/Machine/Ops.lean ====
section
/-! DEFINITION. The named operations over the records: carriages, slots, occupancy lists and zone holders, and what
is derived from them (chapters 2 and 4). -/

namespace Sys2Proof.Machine

/-! ## Carriage records -/

/-- Carriage `c`'s record changed by `f`. -/
def Fleet.modCar (F : Fleet) (c : CarId) (f : Carriage → Carriage) : Fleet :=
  { F with cars := F.cars.set c (f F.cars[c]) }

/-- A hold cause is added (R149). -/
def Fleet.addHold (F : Fleet) (c : CarId) (cause : Cause) : Fleet :=
  F.modCar c (fun k => { k with holds := k.holds.add cause })

/-- A hold cause is removed (R149), with no resumption trigger. -/
def Fleet.removeHold (F : Fleet) (c : CarId) (cause : Cause) : Fleet :=
  F.modCar c (fun k => { k with holds := k.holds.remove cause })

/-- The cause is added to every configured carriage (R151, R153, R163). -/
def Fleet.addHoldAll (F : Fleet) (cause : Cause) : Fleet :=
  { F with cars := Vector.ofFn (fun c : CarId =>
      if (F.cars[c]).configured then { F.cars[c] with holds := (F.cars[c]).holds.add cause } else F.cars[c]) }

/-- The carriage is in reversal run-out: its hold set contains REVERSAL (R121, R122). -/
def Fleet.inRunOut (F : Fleet) (c : CarId) : Bool := (F.cars[c]).holds.reversal

/-- The speed of the last report, 0 when there is none. -/
def Carriage.lastSpeed (k : Carriage) : Int :=
  match k.last with
  | some l => l.speed
  | none => 0

/-- The speed magnitude of the last report. -/
def Carriage.lastV (k : Carriage) : Nat := k.lastSpeed.natAbs

/-- A speed of magnitude 5 mm/s or less (R35). -/
def standstill (v : Nat) : Bool := decide (v ≤ 5)

/-- The leading end of an extent in a direction (R44). -/
def Pose.lead (p : Pose) : Dir → Int
  | .up => p.upper
  | .down => p.lower

/-- The trailing end of an extent in a direction (R44). -/
def Pose.trail (p : Pose) : Dir → Int
  | .up => p.lower
  | .down => p.upper

/-- The leading end of the last report; 0 for a carriage with no extent, which has no warrant. -/
def Carriage.lead (k : Carriage) (d : Dir) : Int :=
  match k.pose with
  | some p => p.lead d
  | none => 0

/-- The trailing end of the last report; 0 for a carriage with no extent, which has no warrant. -/
def Carriage.trail (k : Carriage) (d : Dir) : Int :=
  match k.pose with
  | some p => p.trail d
  | none => 0

/-! ## Slots and handles (R64, R66) -/

/-- The handle under which slot `i` was last issued. -/
def Fleet.handleOf (F : Fleet) (i : SlotId) : Handle := { slot := i, generation := (F.slots[i]).generation }

/-- The live warrant a handle names, none when it is stale (R64). -/
def Fleet.live (F : Fleet) (h : Handle) : Option Warrant :=
  if (F.slots[h.slot]).generation = h.generation then (F.slots[h.slot]).warrant else none

/-- The warrant of slot `i` written or, with none, the slot freed; its generation counter is kept (R64). -/
def Fleet.putWarrant (F : Fleet) (i : SlotId) (w : Option Warrant) : Fleet :=
  { F with slots := F.slots.set i { F.slots[i] with warrant := w } }

/-- The warrant of slot `i` changed by `f`; a free slot stays free. -/
def Fleet.modWarrant (F : Fleet) (i : SlotId) (f : Warrant → Warrant) : Fleet :=
  F.putWarrant i ((F.slots[i]).warrant.map f)

/-- The carriage's current warrant with its slot (R66). -/
def Fleet.currentOf (F : Fleet) (c : CarId) : Option (SlotId × Warrant) :=
  match (F.cars[c]).current with
  | some h => (F.live h).map (fun w => (h.slot, w))
  | none => none

/-- The warrant on top of the carriage's suspension stack with its slot (R116). -/
def Fleet.topOf (F : Fleet) (c : CarId) : Option (SlotId × Warrant) :=
  match (F.cars[c]).stack.getLast? with
  | some h => (F.live h).map (fun w => (h.slot, w))
  | none => none

/-- The lowest-numbered free slot (R64). -/
def Fleet.freeSlot (F : Fleet) : Option SlotId := (List.finRange 48).find? (fun i => (F.slots[i]).warrant.isNone)

/-- Some slot holds a live warrant. -/
def Fleet.anyLive (F : Fleet) : Bool := (List.finRange 48).any (fun i => (F.slots[i]).warrant.isSome)

/-! ## Runs, extents and reservations -/

/-- The run a carriage lives on. -/
def runOf (W : World) (F : Fleet) (c : CarId) : Run := W.map.runs[(F.cars[c]).cfg.run]

/-- The present extent: the part of the extent that lies on the run as it stands, none when empty (R34). -/
def presentExtent (W : World) (F : Fleet) (c : CarId) : Option (Int × Int) :=
  match (F.cars[c]).pose with
  | some p =>
    let lo := max p.lower 0
    let hi := min p.upper (runOf W F c).last
    if lo ≤ hi then some (lo, hi) else none
  | none => none

/-- The units touched by the present extent (R5, R34). -/
def occupied (W : World) (F : Fleet) (c : CarId) : List TrackUnit :=
  match presentExtent W F c with
  | some (lo, hi) => (runOf W F c).touched lo hi
  | none => []

/-- The unit lies in a span of the carriage's reservation (R67, R68). -/
def Fleet.reserves (F : Fleet) (c : CarId) (u : TrackUnit) : Bool :=
  (F.occupancy[(F.cars[c]).cfg.run]).any
    (fun e => e.carriage == c && decide (e.firstUnit ≤ u.num ∧ u.num ≤ e.lastUnit))

/-- The units of the carriage's reservation (R68). -/
def reserved (W : World) (F : Fleet) (c : CarId) : List TrackUnit := (runOf W F c).units.filter (F.reserves c)

/-- The units a carriage claims: its reservation and what its present extent touches (R9, R38). -/
def claim (W : World) (F : Fleet) (c : CarId) : List TrackUnit := reserved W F c ++ occupied W F c

/-- The zones of the chains of the bays that units lie in (R10, R68). -/
def zonesOf (m : TrackMap) (r : Run) (us : List TrackUnit) : List ZoneId :=
  us.flatMap (fun u => match r.bay u.bay with
    | some b => m.chain b
    | none => [])

/-- The zones a carriage reaches by its reservation or its present extent (R39, R68). -/
def reachedZones (W : World) (F : Fleet) (c : CarId) : List ZoneId := zonesOf W.map (runOf W F c) (claim W F c)

/-- The zones a carriage reaches by its present extent alone (R10). -/
def extentZones (W : World) (F : Fleet) (c : CarId) : List ZoneId := zonesOf W.map (runOf W F c) (occupied W F c)

/-- The carriage's zone holdings are recomputed while the map is LOCKED: free zones it reaches become its own, its
zones it reaches no more become free, and another carriage's zone stays that carriage's (R39, R68). -/
def rezone (W : World) (F : Fleet) (c : CarId) : Fleet :=
  if W.map.locked then
    let zs := reachedZones W F c
    { F with holders := Vector.ofFn (fun z : ZoneId =>
        match F.holders[z] with
        | some d => if d = c ∧ z ∉ zs then none else some d
        | none => if z ∈ zs then some c else none) }
  else F

/-! ## Occupancy lists (R67) -/

/-- List order: ascending first unit, then carriage, then slot (R67). -/
def Entry.before (a b : Entry) : Bool :=
  decide (a.firstUnit < b.firstUnit) ||
    (a.firstUnit == b.firstUnit && (decide (a.carriage < b.carriage) ||
      (a.carriage == b.carriage && decide (a.handle.slot < b.handle.slot))))

/-- An entry placed in order. -/
def insertEntry (e : Entry) : List Entry → List Entry
  | [] => [e]
  | x :: xs => if e.before x then e :: x :: xs else x :: insertEntry e xs

/-- The unit number of the unit that contains a position on the run. -/
def Run.numAt (r : Run) (x : Int) : Nat :=
  match r.unitAt x with
  | some u => u.num
  | none => 0

/-- The entry of a warrant: its span from rear unit to limit unit, the lower first (R65, R67). -/
def entryOf (r : Run) (h : Handle) (w : Warrant) : Entry :=
  { carriage := w.carriage, handle := h, firstUnit := min (r.numAt w.rear) (r.numAt w.limit),
    lastUnit := max (r.numAt w.rear) (r.numAt w.limit) }

/-- The warrant of the slot has no entry on its run's list any more (R67). -/
def Fleet.dropEntry (F : Fleet) (run : RunId) (i : SlotId) : Fleet :=
  { F with occupancy := F.occupancy.set run ((F.occupancy[run]).filter (fun e => e.handle.slot != i)) }

/-- The warrant's entry is written from its rear and limit as they stand and placed in order (R67). -/
def Fleet.putEntry (W : World) (F : Fleet) (i : SlotId) (w : Warrant) : Fleet :=
  let run := (F.cars[w.carriage]).cfg.run
  let G := F.dropEntry run i
  let entries := insertEntry (entryOf W.map.runs[run] (F.handleOf i) w) G.occupancy[run]
  { G with occupancy := G.occupancy.set run entries }

/-- After a change to the warrant of slot `i`: its entry follows it and the carriage's holdings are recomputed
(R67, R68). -/
def resettle (W : World) (F : Fleet) (i : SlotId) : Fleet :=
  match (F.slots[i]).warrant with
  | some w => rezone W (F.putEntry W i w) w.carriage
  | none => F

/-! ## The warrant ceiling (R75) -/

/-- The units of a warrant's span (R65). -/
def spanUnits (W : World) (F : Fleet) (w : Warrant) : List TrackUnit :=
  (runOf W F w.carriage).between w.rear w.limit

/-- The least of `start` and the units' ceilings for the warrant (R75). -/
def leastCeiling (W : World) (F : Fleet) (c : CarId) (k : Cls) (start : Nat) (us : List TrackUnit) : Nat :=
  us.foldl (fun acc u => match (runOf W F c).bay u.bay with
    | some b => min acc (W.map.ceilingFor b k (F.cars[c]).cfg.creepSpeed)
    | none => acc) start

/-- The warrant ceiling in full: over the whole span of a SUSPENDED warrant, else from the leading unit to the
limit unit (R75). -/
def fullCeiling (W : World) (F : Fleet) (w : Warrant) : Nat :=
  leastCeiling W F w.carriage w.cls (F.cars[w.carriage]).cfg.maxSpeed
    (match w.state with
     | .suspended => spanUnits W F w
     | _ => (runOf W F w.carriage).between ((F.cars[w.carriage]).lead w.dir) w.limit)

/-- The ceiling of the warrant of slot `i` is computed in full. -/
def receiling (W : World) (F : Fleet) (i : SlotId) : Fleet :=
  match (F.slots[i]).warrant with
  | some w => F.modWarrant i (fun w' => { w' with ceiling := fullCeiling W F w })
  | none => F

/-! ## The rear (R65) -/

/-- The near boundary of the unit that contains the trailing end (R65). -/
def rearFor (W : World) (F : Fleet) (c : CarId) (d : Dir) : Int :=
  match (runOf W F c).unitNear ((F.cars[c]).trail d) with
  | some u => u.near d
  | none => 0

end Sys2Proof.Machine
end

