-- ==== Sys2Proof/Machine/Envelope.lean ====
section
/-! DEFINITION. The Envelope Supervisor's arithmetic and checks (chapter 3). -/

namespace Sys2Proof.Machine

/-- The supervising warrant with its slot (R44): in a run-out the top of the suspension stack, or the current
warrant when the stack is empty; otherwise the current warrant. -/
def Fleet.supervising (F : Fleet) (c : CarId) : Option (SlotId × Warrant) :=
  if F.inRunOut c then
    match F.topOf c with
    | some x => some x
    | none => F.currentOf c
  else F.currentOf c

/-- UP for a positive speed, DOWN for a negative one, when above standstill (R44). -/
def speedDir (speed : Int) : Option Dir :=
  if standstill speed.natAbs then none else if 0 < speed then some .up else some .down

/-- The direction of supervision (R44). -/
def Fleet.supervisionDir (F : Fleet) (c : CarId) (speed : Int) : Option Dir :=
  match F.supervising c with
  | some (_, w) => some w.dir
  | none => speedDir speed

/-- The quotient rounded up. -/
def ceilDiv (n d : Nat) : Nat := (n + (d - 1)) / d

/-- The braking distance: reaction allowance and braking run, each rounded up (R45). -/
def brakingDistance (v t a : Nat) : Nat := ceilDiv (v * t) 1000 + ceilDiv (v * v) (2 * a)

/-- The braking front of an extent in the direction of supervision (R46). -/
def frontAt (cfg : CarConfig) (p : Pose) (v : Nat) : Option Dir → Option Int
  | none => none
  | some d =>
    if standstill v then some (p.lead d)
    else some (onward d (p.lead d) (brakingDistance v cfg.reactionTime cfg.deceleration))

/-- The braking front of the last report for the supervising warrant (R46, R47); without a last report it is none. -/
def Fleet.frontNow (F : Fleet) (c : CarId) : Option Int :=
  match (F.cars[c]).last, (F.cars[c]).pose with
  | some l, some p => frontAt (F.cars[c]).cfg p l.speed.natAbs (F.supervisionDir c l.speed)
  | _, _ => none

/-- The braking front is computed anew (R47). -/
def refront (F : Fleet) (c : CarId) : Fleet := F.modCar c (fun k => { k with front := F.frontNow c })

/-- The rounded front in a warrant's direction: the recorded front rounded out (R48); the leading end stands in
for a front that is none, which no warrant that is cut meets. -/
def roundedFront (W : World) (F : Fleet) (c : CarId) (d : Dir) : Int :=
  (runOf W F c).roundOut d (((F.cars[c]).front).getD ((F.cars[c]).lead d))

/-- The effective limit L: the confirm point, or with none the limit (R49). -/
def Warrant.effectiveLimit (w : Warrant) : Int := w.confirm.getD w.limit

/-- The downshift cap (R51). -/
def downshiftCap (k : Carriage) : Nat :=
  match k.level with
  | 0 => k.cfg.maxSpeed
  | 1 => max k.cfg.creepSpeed (k.cfg.maxSpeed / 2)
  | _ => max k.cfg.creepSpeed (k.cfg.maxSpeed / 4)

/-- The wind cap of a run, none on a SHELTERED one or in CALM (R52). -/
def windCap (wind : Wind) (r : Run) : Option Nat :=
  if r.exposed then
    match wind.state with
    | .calm => none
    | .breeze => some wind.breezeCap
    | _ => some wind.galeCap
  else none

/-- The effective ceiling of a report under a warrant (R50, R53). -/
def effectiveCeiling (W : World) (F : Fleet) (c : CarId) (w : Warrant) : Nat :=
  match windCap W.wind (runOf W F c) with
  | some cap => min (min w.ceiling (downshiftCap F.cars[c])) cap
  | none => min w.ceiling (downshiftCap F.cars[c])

/-- The overspeed tolerance of an effective ceiling (R53). -/
def tolerance (ceiling : Nat) : Nat := max 5 (ceiling / 10)

/-- Reported speed above standstill against the direction (R58). -/
def against (d : Dir) (speed : Int) : Bool :=
  match d with
  | .up => decide (speed < -5)
  | .down => decide (5 < speed)

/-- The speed is above standstill in the direction (R95). -/
def along (d : Dir) (speed : Int) : Bool :=
  match d with
  | .up => decide (5 < speed)
  | .down => decide (speed < -5)

/-- The trip checks against a supervising warrant, the first that fails (R54 to R58). REVERSE is not made while the
hold set contains REVERSAL (R58). -/
def warrantCheck (W : World) (F : Fleet) (c : CarId) (w : Warrant) (speed : Int) : Option TripKind :=
  let k := F.cars[c]
  let lead := k.lead w.dir
  let limit := w.effectiveLimit
  let ceiling := effectiveCeiling W F c w
  if beyond w.dir lead limit then some .overrun
  else if beyond w.dir (k.front.getD lead) limit then some .brakeCurve
  else if ceiling + tolerance ceiling < speed.natAbs then some .overspeed
  else if against w.dir speed && !F.inRunOut c then some .reverse
  else none

/-- The checks of a report: those of its supervising warrant, or UNWARRANTED when there is none (R54, R60). -/
def envelopeCheck (W : World) (F : Fleet) (c : CarId) (speed : Int) : Option TripKind :=
  match F.supervising c with
  | some (_, w) => warrantCheck W F c w speed
  | none => if standstill speed.natAbs then none else some .unwarranted

/-- The WARNING check is met: the front lies within the warning lead of L (R59). -/
def warningMet (F : Fleet) (c : CarId) (w : Warrant) : Bool :=
  let k := F.cars[c]
  beyond w.dir (k.front.getD (k.lead w.dir)) (onward w.dir w.effectiveLimit (-(k.cfg.warningLead : Int)))

/-- The WARNING check of a report that passed its trip checks: once for each warrant (R59). -/
def warn (F : Fleet) (c : CarId) : Fleet :=
  match F.supervising c with
  | some (i, w) =>
    if warningMet F c w && !w.warned then
      (F.modWarrant i (fun w' => { w' with warned := true })).raise
        { carriage := some c, handle := some (F.handleOf i), value := .warning w.effectiveLimit }
    else F
  | none => F

end Sys2Proof.Machine
end

