-- ==== Sys2Proof/Machine/Walk.lean ====
section
/-! DEFINITION. The grant walk (R69 to R74). -/

namespace Sys2Proof.Machine

/-- What a walk is run for (R69). -/
structure WalkPlan where
  car : CarId
  cls : Cls
  dir : Dir
  base : Int
  target : Int
  /-- First and last unit of a resumed warrant's old span, whose units meet four checks alone (R126). -/
  oldSpan : Option (Nat × Nat)
  /-- First and last unit of the span the warrant has, whose check bays are not met again (R72). -/
  ownSpan : Option (Nat × Nat)
  /-- The check bay that already counts as the first met: that of a confirm point present (R72). -/
  met : Option Nat
  deriving DecidableEq, Repr

/-- How far a walk has come. -/
structure WalkState where
  met : Option Nat
  confirm : Option Int
  /-- The passing units, the last one first. -/
  passed : List TrackUnit
  deriving DecidableEq, Repr

/-- A walk's result (R73): limit, blocker or none, the confirm point it recorded, the passing units. -/
structure WalkResult where
  limit : Int
  blocker : Option Blocker
  confirm : Option Int
  passed : List TrackUnit
  deriving DecidableEq, Repr

/-- The unit number lies in the range. -/
def inSpan (span : Option (Nat × Nat)) (num : Nat) : Bool :=
  match span with
  | some (a, b) => decide (a ≤ num ∧ num ≤ b)
  | none => false

/-- A direction is the opening one on a run when it differs from the close direction (R71). -/
def opening (r : Run) (d : Dir) : Bool := r.closeDir != d

/-- The WIND check of an EXPOSED run fails (R71). UNKNOWN is taken as GALE. -/
def windRefuses (st : WindState) (isOpening : Bool) (k : Cls) : Bool :=
  match st with
  | .calm => false
  | .breeze => false
  | .gale => isOpening
  | .unknown => isOpening
  | .storm => isOpening || k != .emergency

/-- The MAINT check fails (R71). -/
def maintRefuses (windowOpen : Bool) (k : Cls) : Bool :=
  match k with
  | .auto => windowOpen
  | .operator => windowOpen
  | .maintenance => !windowOpen
  | .emergency => false

/-- The units claimed by every other configured carriage of the run (R70, OCCUPIED; R38). -/
def othersClaims (W : World) (F : Fleet) (c : CarId) : List TrackUnit :=
  (List.finRange 16).flatMap (fun d =>
    if d ≠ c ∧ (F.cars[d]).configured ∧ (F.cars[d]).cfg.run = (F.cars[c]).cfg.run then claim W F d else [])

/-- The unit conflicts with one of the units (R9). -/
def conflictsAny (clearance : Nat) (u : TrackUnit) (others : List TrackUnit) : Bool :=
  others.any (fun v => unitsConflict clearance u v)

/-- A zone of the bay's chain is held by a carriage other than `c` (R38, R70). -/
def zoneHeldByOther (W : World) (F : Fleet) (c : CarId) (b : Bay) : Bool :=
  (W.map.chain b).any (fun z => match F.holders[z] with
    | some d => d != c
    | none => false)

/-- The bay names a condition that is FALSE (R70). -/
def conditionFails (W : World) (b : Bay) : Bool :=
  match b.condition with
  | some n => !W.conditions[n]
  | none => false

/-- The run's wind refuses the walk (R71). -/
def WalkPlan.windFails (W : World) (F : Fleet) (p : WalkPlan) : Bool :=
  let r := runOf W F p.car
  r.exposed && windRefuses W.wind.state (opening r p.dir) p.cls

/-- The run's maintenance window refuses the walk (R71). -/
def WalkPlan.maintFails (W : World) (F : Fleet) (p : WalkPlan) : Bool :=
  maintRefuses W.windows[(F.cars[p.car]).cfg.run] p.cls

/-- Checks 1 to 8 of a unit, the first that fails (R70). `others` are the other carriages' claims. -/
def freshBlocker (W : World) (F : Fleet) (p : WalkPlan) (others : List TrackUnit) (u : TrackUnit) (b : Bay) :
    Option Blocker :=
  if !b.inService then some .service
  else if W.map.ceiling b = 0 then some .ceiling
  else if W.map.access b p.cls = .deny then some .access
  else if conditionFails W b then some .condition
  else if p.windFails W F then some .wind
  else if p.maintFails W F then some .maint
  else if zoneHeldByOther W F p.car b then some .zone
  else if !F.reserves p.car u && conflictsAny (runOf W F p.car).clearance u others then some .occupied
  else none

/-- The checks of an old-span unit: SERVICE, CONDITION, WIND, MAINT (R126). -/
def oldSpanBlocker (W : World) (F : Fleet) (p : WalkPlan) (b : Bay) : Option Blocker :=
  if !b.inService then some .service
  else if conditionFails W b then some .condition
  else if p.windFails W F then some .wind
  else if p.maintFails W F then some .maint
  else none

/-- A check bay is met at the unit: its bay has entry check, and is neither touched by the present extent nor in the
warrant's span (R72). -/
def meetsCheckBay (W : World) (F : Fleet) (p : WalkPlan) (u : TrackUnit) (b : Bay) : Bool :=
  b.entryCheck && !(occupied W F p.car).any (fun v => v.bay == u.bay) &&
    !(runOf W F p.car).units.any (fun v => v.bay == u.bay && inSpan p.ownSpan v.num)

/-- The confirm point short of a bay (R72), also where that is the position beside the run's end (notes/assumptions/45.md). -/
def confirmShortOf (r : Run) (d : Dir) (bay : Nat) (b : Bay) : Int :=
  match d with
  | .up => (r.bayStart bay : Int) - 1
  | .down => (r.bayStart bay : Int) + b.length

/-- Check 9 at a unit that passed the others: the walk with the unit passed, or none when it fails CHECK (R72). -/
def passCheck (W : World) (F : Fleet) (p : WalkPlan) (u : TrackUnit) (b : Bay) (st : WalkState) : Option WalkState :=
  if meetsCheckBay W F p u b then
    match st.met with
    | none => some { met := some u.bay, confirm := some (confirmShortOf (runOf W F p.car) p.dir u.bay b),
                     passed := u :: st.passed }
    | some m => if m = u.bay then some { st with passed := u :: st.passed } else none
  else some { st with passed := u :: st.passed }

/-- One unit tested: the walk goes on, or stops with a blocker (R70, R126). -/
def testUnit (W : World) (F : Fleet) (p : WalkPlan) (others : List TrackUnit) (u : TrackUnit) (st : WalkState) :
    Except Blocker WalkState :=
  match (runOf W F p.car).bay u.bay with
  | none => .error .service
  | some b =>
    if inSpan p.oldSpan u.num then
      match oldSpanBlocker W F p b with
      | some k => .error k
      | none => .ok { st with passed := u :: st.passed }
    else
      match freshBlocker W F p others u b with
      | some k => .error k
      | none =>
        match passCheck W F p u b st with
        | some st' => .ok st'
        | none => .error .check

/-- The units tested in turn up to the first that fails (R70). -/
def walkUnits (W : World) (F : Fleet) (p : WalkPlan) (others : List TrackUnit) :
    List TrackUnit → WalkState → WalkState × Option Blocker
  | [], st => (st, none)
  | u :: us, st =>
    match testUnit W F p others u st with
    | .ok st' => walkUnits W F p others us st'
    | .error k => (st, some k)

/-- The units a walk may test: from the unit after the base's to the target's, in the order met (R69). -/
def walkPath (r : Run) (p : WalkPlan) : List TrackUnit :=
  inOrder p.dir (r.units.filter (fun u =>
    beyond p.dir (u.near p.dir) p.base && atOrBeyond p.dir p.target (u.near p.dir)))

/-- The grant walk (R69 to R73). -/
def walk (W : World) (F : Fleet) (p : WalkPlan) : WalkResult :=
  let start : WalkState := { met := p.met, confirm := none, passed := [] }
  match walkUnits W F p (othersClaims W F p.car) (walkPath (runOf W F p.car) p) start with
  | (st, none) => { limit := p.target, blocker := none, confirm := st.confirm, passed := st.passed }
  | (st, some k) =>
    { limit := (match st.passed with
        | u :: _ => u.far p.dir
        | [] => p.base),
      blocker := some k, confirm := st.confirm, passed := st.passed }

/-- The walk gains track: its limit lies beyond the base (R74). Otherwise it is BLOCKED. -/
def WalkResult.gains (res : WalkResult) (p : WalkPlan) : Bool := beyond p.dir res.limit p.base

/-- DONE when the limit is the target, else PARTIAL (R74). -/
def WalkResult.status (res : WalkResult) : Status :=
  match res.blocker with
  | none => .done
  | some _ => .partially

end Sys2Proof.Machine
end

