-- ==== Sys2Proof/Machine/Table.lean ====
section
/-! DEFINITION. The Warrant Table's shared operations: shortening and marking a warrant, retirement, resumption
(R84, R88, R90, R104, R124 to R128), and hold causes whose removal triggers a resumption (R150). -/

namespace Sys2Proof.Machine

/-! ## Shortening (R85, R104) and marking (R90) -/

/-- A confirm point that is not short of the limit is dropped (R85). -/
def keepShort (d : Dir) (limit : Int) (confirm : Option Int) : Option Int :=
  confirm.filter (fun p => beyond d limit p)

/-- The warrant of slot `i` takes a limit at or short of its own: the confirm point, ceiling, entry and zone holdings
follow; the rest is kept (R85, R104). -/
def shorten (W : World) (F : Fleet) (i : SlotId) (limit : Int) : Fleet :=
  let G := F.modWarrant i (fun w => { w with limit := limit, confirm := keepShort w.dir limit w.confirm })
  resettle W (receiling W G i) i

/-- The leading end of the last report rounded out in the direction: the floor of a run-out (R84). -/
def runOutFloor (W : World) (F : Fleet) (c : CarId) (d : Dir) : Int :=
  (runOf W F c).roundOut d ((F.cars[c]).lead d)

/-- A floor is taken no further back than the rear, so that the order of R65 is kept even when the carriage has drifted
back out of its span (notes/assumptions/21.md). -/
def notBehindRear (d : Dir) (floor rear : Int) : Int := if beyond d rear floor then rear else floor

/-- The position a cut or mark draws a warrant's limit back to: the rounded front, or for a current warrant in a
run-out the run-out floor (R84, R90, R111). The suspended warrant that supervises a run-out is cut to its own rounded
front (R122). -/
def cutFloor (W : World) (F : Fleet) (w : Warrant) : Int :=
  notBehindRear w.dir
    (if F.inRunOut w.carriage && w.state != .suspended then runOutFloor W F w.carriage w.dir
     else roundedFront W F w.carriage w.dir) w.rear

/-- The nearer of the floor and the current limit (R90, R111). -/
def cutLimit (W : World) (F : Fleet) (w : Warrant) : Int :=
  let floor := cutFloor W F w
  if beyond w.dir w.limit floor then floor else w.limit

/-- The warrant of slot `i` is cut and marked retire-on-stop; a warrant already marked keeps its first reason (R90). -/
def markWarrant (W : World) (F : Fleet) (i : SlotId) (reason : Reason) : Fleet :=
  match (F.slots[i]).warrant with
  | some w =>
    (shorten W F i (cutLimit W F w)).modWarrant i
      (fun w' => { w' with retireOnStop := some (w.retireOnStop.getD reason) })
  | none => F

/-! ## Retirement (R88) -/

/-- Steps 1 to 5 of a retirement, and the braking front of step 6: recomputed when the current warrant retires, or
when the carriage is in a run-out, whose supervising warrant may then change (R47, R88). -/
def unlink (W : World) (F : Fleet) (i : SlotId) (w : Warrant) (reason : Reason) : Fleet :=
  let h := F.handleOf i
  let c := w.carriage
  let wasCurrent := decide ((F.cars[c]).current = some h)
  let F1 := F.modCar c (fun k => { k with
    current := if k.current = some h then none else k.current
    stack := k.stack.filter (fun x => x != h) })
  let F2 := rezone W (F1.dropEntry (F.cars[c]).cfg.run i) c
  let F3 := F2.modCar c (fun k => { k with lastRetire := some (reason, h) })
  let F4 := F3.putWarrant i none
  if wasCurrent || F4.inRunOut c then refront F4 c else F4

/-- The retirement of a MAINTENANCE warrant removes KEY_LOST where it is present (R88, step 7). -/
def losesKey (F : Fleet) (w : Warrant) : Bool := w.cls == .maintenance && (F.cars[w.carriage]).holds.keyLost

/-- A retirement that attempts no resumption: `restart` (R93), and an entry disposed of within an attempt (R128). -/
def retireQuietly (W : World) (F : Fleet) (i : SlotId) (reason : Reason) : Fleet :=
  match (F.slots[i]).warrant with
  | some w =>
    let G := unlink W F i w reason
    if losesKey G w then G.removeHold w.carriage .keyLost else G
  | none => F

/-! ## Resumption (R124 to R128) -/

/-- The suspended warrant's limit lies at or behind the leading end in its direction (R125). -/
def overtaken (F : Fleet) (w : Warrant) : Bool := !beyond w.dir w.limit ((F.cars[w.carriage]).lead w.dir)

/-- The confirm point a resumption keeps: one that lies beyond the leading end (R126). -/
def resumedConfirm (F : Fleet) (w : Warrant) : Option Int :=
  w.confirm.filter (fun p => beyond w.dir p ((F.cars[w.carriage]).lead w.dir))

/-- The bay a confirm point stands short of (R72). -/
def bayOfConfirm (r : Run) (d : Dir) (confirm : Option Int) : Option Nat :=
  match confirm with
  | some p => (r.unitAt (onward d p 1)).map TrackUnit.bay
  | none => none

/-- The walk of a resumption (R126). -/
def resumePlan (W : World) (F : Fleet) (i : SlotId) (w : Warrant) : WalkPlan :=
  let r := runOf W F w.carriage
  let e := entryOf r (F.handleOf i) w
  { car := w.carriage, cls := w.cls, dir := w.dir, base := (F.cars[w.carriage]).lead w.dir, target := w.target,
    oldSpan := some (e.firstUnit, e.lastUnit), ownSpan := some (e.firstUnit, e.lastUnit),
    met := bayOfConfirm r w.dir (resumedConfirm F w) }

/-- The popped warrant becomes current, GRANTED, with the walk's limit (R127). -/
def resumeWarrant (W : World) (F : Fleet) (i : SlotId) (w : Warrant) (res : WalkResult) : Fleet :=
  let c := w.carriage
  let h := F.handleOf i
  let confirm := match res.confirm with
    | some p => some p
    | none => keepShort w.dir res.limit (resumedConfirm F w)
  let w1 := { w with limit := res.limit, rear := rearFor W F c w.dir, confirm := confirm, state := .granted,
                     expiry := some (W.now + BitVec.ofNat 32 w.lifetime) }
  let F1 := F.putWarrant i (some { w1 with ceiling := fullCeiling W F w1 })
  let F2 := F1.modCar c (fun k => { k with current := some h, stack := k.stack.filter (fun x => x != h) })
  let F3 := refront (resettle W F2 i) c
  F3.raise { carriage := some c, handle := some h, value := .resumed res.blocker.isSome res.blocker }

/-- RESUME_FAIL (R125, R128). -/
def raiseResumeFail (F : Fleet) (c : CarId) (h : Handle) (reason : Reason) (blocker : Option Blocker) : Fleet :=
  F.raise { carriage := some c, handle := some h, value := .resumeFail reason blocker }

/-- The entries taken from the top, one at a time, until one is resumed or none is left (R125 to R128). -/
def attemptFrom (W : World) (c : CarId) : List Handle → Fleet → Fleet
  | [], F => refront F c
  | h :: hs, F =>
    match F.live h with
    | none => attemptFrom W c hs (F.modCar c (fun k => { k with stack := k.stack.filter (fun x => x != h) }))
    | some w =>
      match w.retireOnStop with
      | some reason => attemptFrom W c hs (retireQuietly W F h.slot reason)
      | none =>
        if overtaken F w then
          attemptFrom W c hs (raiseResumeFail (retireQuietly W F h.slot .overtaken) c h .overtaken none)
        else
          let plan := resumePlan W F h.slot w
          let res := walk W F plan
          if res.gains plan then resumeWarrant W F h.slot w res
          else attemptFrom W c hs (raiseResumeFail (retireQuietly W F h.slot .resumeFail) c h .resumeFail res.blocker)

/-- The conditions of a resumption attempt (R124). -/
def mayAttempt (F : Fleet) (c : CarId) : Bool :=
  let k := F.cars[c]
  k.current.isNone && !k.stack.isEmpty && k.state != .tripped && k.holds.isEmpty

/-- A resumption attempt, made when its conditions hold (R124). -/
def attempt (W : World) (F : Fleet) (c : CarId) : Fleet :=
  if mayAttempt F c then attemptFrom W c (F.cars[c]).stack.reverse F else F

/-- A cause is removed, and a hold set that becomes empty by it is a resumption trigger (R150). -/
def releaseHold (W : World) (F : Fleet) (c : CarId) (cause : Cause) : Fleet :=
  let G := F.removeHold c cause
  if (F.cars[c]).holds.has cause && (G.cars[c]).holds.isEmpty then attempt W G c else G

/-- The warrant of slot `i` retires (R88). The resumption of step 6 follows the retirement of a current warrant with
any reason but RELEASED; the removal of KEY_LOST is step 7. -/
def retire (W : World) (F : Fleet) (i : SlotId) (reason : Reason) : Fleet :=
  match (F.slots[i]).warrant with
  | some w =>
    let wasCurrent := decide ((F.cars[w.carriage]).current = some (F.handleOf i))
    let G := unlink W F i w reason
    let G6 := if wasCurrent && reason != .released then attempt W G w.carriage else G
    if losesKey G6 w then releaseHold W G6 w.carriage .keyLost else G6
  | none => F

end Sys2Proof.Machine
end

