-- ==== Sys2Proof/Machine/Trips.lean ====
section
/-! DEFINITION. Trips and downshift (R155 to R158), and the progress of a warrant at a report (R94 to R100, R123). -/

namespace Sys2Proof.Machine

/-! ## Trips -/

/-- The consecutive trip count rises by one, and reaching the threshold downshifts (R156 step 5, R157). -/
def countTrip (F : Fleet) (c : CarId) : Fleet :=
  let k := F.cars[c]
  if k.cfg.threshold ≤ k.tripCount + 1 then
    if k.level < 2 then
      (F.modCar c (fun k => { k with tripCount := 0, level := k.level + 1 })).raise
        { carriage := some c, handle := none, value := .downshift (k.level + 1) }
    else F.modCar c (fun k => { k with tripCount := 0 })
  else F.modCar c (fun k => { k with tripCount := k.tripCount + 1 })

/-- In a run-out a trip also cuts and marks the top suspended warrant (R122), whether or not the carriage has a current
warrant, which is the model's choice where R156 skips its step 4 (notes/assumptions/9.md). -/
def markTop (W : World) (F : Fleet) (c : CarId) (reason : Reason) : Fleet :=
  if F.inRunOut c then
    match F.topOf c with
    | some (i, _) => markWarrant W F i reason
    | none => F
  else F

/-- The current warrant retires at once when the deciding speed shows standstill, with TRIPPED or the reason it
already carries (R100, R156); otherwise it is cut and marked. -/
def stopCurrent (W : World) (F : Fleet) (c : CarId) (v : Nat) : Fleet :=
  match F.currentOf c with
  | some (i, w) =>
    if standstill v then retire W F i (w.retireOnStop.getD .tripped) else markWarrant W F i .tripped
  | none => F

/-- A trip of a carriage that is not TRIPPED (R156). With no current warrant step 4 touches none but, in a run-out, the top
of the stack (notes/assumptions/9.md). -/
def firstTrip (W : World) (F : Fleet) (c : CarId) (kind : TripKind) (v : Nat) : Fleet :=
  let F1 := F.modCar c (fun k => { k with
    state := .tripped
    trip := some { kind := kind, tick := W.now, further := 0 }
    holds := k.holds.add .trip })
  let F2 := markTop W (stopCurrent W F1 c v) c .tripped
  (countTrip F2 c).raise { carriage := some c, handle := (F.cars[c]).current, value := .trip kind }

/-- A trip of a carriage that is already TRIPPED (R158). One raised by a cut at standstill retires the marked warrant
at once; one raised by a report leaves that to stage 1 of the report's progress. -/
def furtherTrip (W : World) (F : Fleet) (c : CarId) (v : Nat) (byCut : Bool) : Fleet :=
  let F1 := F.modCar c (fun k => { k with
    trip := k.trip.map (fun t => { t with further := min 255 (t.further + 1) }) })
  let F2 := match F1.currentOf c with
    | some (i, _) => markWarrant W F1 i .tripped
    | none => F1
  let F3 := markTop W F2 c .tripped
  if byCut then stopCurrent W F3 c v else F3

/-- A trip of kind `kind` with deciding speed magnitude `v` (R155, R156, R158). -/
def trip (W : World) (F : Fleet) (c : CarId) (kind : TripKind) (v : Nat) (byCut : Bool) : Fleet :=
  if (F.cars[c]).state = .tripped then furtherTrip W F c v byCut else firstTrip W F c kind v

/-! ## Progress (R94) -/

/-- Stage 1: a current warrant carrying retire-on-stop retires at a standstill report (R100). -/
def stopStage (W : World) (F : Fleet) (c : CarId) (v : Nat) : Fleet :=
  match F.currentOf c with
  | some (i, w) =>
    match w.retireOnStop with
    | some reason => if standstill v then retire W F i reason else F
    | none => F
  | none => F

/-- The trip of carriage `c` was recorded with kind REVERSE, so its GRANTED warrant never activates (R58;
notes/assumptions/48.md). -/
def trippedReverse (F : Fleet) (c : CarId) : Bool :=
  (F.cars[c]).trip.map TripRecord.kind == some .reverse

/-- Stage 2: activation (R95), but for the warrant under which the carriage tripped REVERSE (R58). -/
def activate (F : Fleet) (i : SlotId) (speed : Int) : Fleet :=
  F.modWarrant i (fun w =>
    if w.state = .granted ∧ along w.dir speed ∧ ¬trippedReverse F w.carriage then
      { w with state := .active, expiry := none }
    else w)

/-- Stage 3: rear release (R96, R97). -/
def releaseRear (W : World) (F : Fleet) (i : SlotId) : Fleet :=
  match (F.slots[i]).warrant with
  | some w =>
    let rear := rearFor W F w.carriage w.dir
    if beyond w.dir rear w.rear then resettle W (F.modWarrant i (fun w' => { w' with rear := rear })) i else F
  | none => F

/-- The distance from the leading end to the limit, in the warrant's direction. -/
def toLimit (k : Carriage) (w : Warrant) : Int :=
  match w.dir with
  | .up => w.limit - k.lead w.dir
  | .down => k.lead w.dir - w.limit

/-- The warrant completes (R98). -/
def completes (F : Fleet) (w : Warrant) (v : Nat) : Bool :=
  let k := F.cars[w.carriage]
  w.state == .active && w.retireOnStop.isNone && w.confirm.isNone && standstill v &&
    decide (toLimit k w ≤ k.cfg.stopWindow)

/-- Stage 4: completion (R98, R99). -/
def completeStage (W : World) (F : Fleet) (i : SlotId) (v : Nat) : Fleet :=
  match (F.slots[i]).warrant with
  | some w =>
    if completes F w v then
      retire W ((F.modCar w.carriage (fun k => { k with tripCount := 0 })).raise
        { carriage := some w.carriage, handle := some (F.handleOf i), value := .complete w.limit }) i .complete
    else F
  | none => F

/-- Stages 2 and 3. In a reversal run-out the current warrant is neither activated nor drawn up (R94, R122;
notes/assumptions/22.md). -/
def advance (W : World) (F : Fleet) (c : CarId) (i : SlotId) (speed : Int) : Fleet :=
  if F.inRunOut c then F else releaseRear W (activate F i speed) i

/-- The four stages of a report that passed supervision, for the current warrant (R94). -/
def progress (W : World) (F : Fleet) (c : CarId) (speed : Int) : Fleet :=
  match F.currentOf c with
  | some (i, w) =>
    if w.retireOnStop.isSome && standstill speed.natAbs then stopStage W F c speed.natAbs
    else completeStage W (advance W F c i speed) i speed.natAbs
  | none => F

/-- Supervision of a report whose track checks passed, and what it hands on (R32 stage 8, R54, R61). -/
def supervise (W : World) (F : Fleet) (c : CarId) (speed : Int) : Fleet :=
  match envelopeCheck W F c speed with
  | some kind => stopStage W (trip W F c kind speed.natAbs false) c speed.natAbs
  | none => progress W (warn F c) c speed

/-- The end of a reversal run-out at a standstill report (R123). -/
def endRunOut (W : World) (F : Fleet) (c : CarId) (v : Nat) : Fleet :=
  if standstill v && F.inRunOut c then
    let F1 := match F.topOf c with
      | some (i, w) => match w.retireOnStop with
        | some reason => retire W F i reason
        | none => F
      | none => F
    let F2 := F1.removeHold c .reversal
    let F3 := match F2.currentOf c with
      | some (i, _) => receiling W F2 i
      | none => F2
    attempt W (refront F3 c) c
  else F

end Sys2Proof.Machine
end

