-- ==== Sys2Proof/Machine/Cuts.lean ====
section
/-! DEFINITION. Cut-back demands: cut to unit, cut to front, and the demands of wind, key and emergency stop
(R104 to R112, R140 to R143, R147, R153). -/

namespace Sys2Proof.Machine

/-- A warrant an event reached: its carriage and its handle. -/
abbrev Reached := CarId × Handle

/-- CUT_BACK is raised for each warrant reached, in the order of R165 (R104). -/
def raiseCuts (F : Fleet) (source : CutSource) (reached : List Reached) : Fleet :=
  reached.foldl (fun G x => G.raise { carriage := some x.1, handle := some x.2, value := .cutBack source }) F

/-- A carriage's warrants in the order of R104: the stack from the bottom upward, the current warrant last. -/
def warrantsOf (F : Fleet) (c : CarId) : List Handle := (F.cars[c]).stack ++ (F.cars[c]).current.toList

/-- The warrant supervises its carriage's run-out: it is the top of the stack (R105, R143). -/
def supervisesRunOut (F : Fleet) (c : CarId) (h : Handle) : Bool :=
  F.inRunOut c && (F.cars[c]).stack.getLast? == some h

/-- A step applied to handles in turn, collecting those it reached. -/
def cutEach (step : Fleet → Handle → Fleet × Bool) (c : CarId) : List Handle → Fleet → Fleet × List Reached
  | [], F => (F, [])
  | h :: hs, F =>
    let (G, hit) := step F h
    let (G', rest) := cutEach step c hs G
    (G', if hit then (c, h) :: rest else rest)

/-- A demand applied to carriages in turn, collecting the warrants it reached. -/
def cutCars (step : CarId → Fleet → Fleet × List Reached) : List CarId → Fleet → Fleet × List Reached
  | [], F => (F, [])
  | c :: cs, F =>
    let (G, reached) := step c F
    let (G', rest) := cutCars step cs G
    (G', reached ++ rest)

/-! ## Cut to unit (R106 to R110) -/

/-- What a cut to unit names: the affected bays, the source of CUT_BACK, the kind of its trips and the reason of a
suspended warrant whose rear unit is affected. -/
structure UnitDemand where
  /-- Affected run and bay, or none for every bay that names `condition`. -/
  bay : Option (RunId × Nat)
  condition : Option CondId
  source : CutSource
  kind : TripKind
  lost : Reason
  deriving DecidableEq, Repr

/-- The unit is affected (R106). -/
def UnitDemand.affects (d : UnitDemand) (W : World) (run : RunId) (u : TrackUnit) : Bool :=
  match d.bay with
  | some (r, b) => decide (r = run ∧ b = u.bay)
  | none =>
    match (W.map.runs[run]).bay u.bay with
    | some b => b.condition.isSome && b.condition == d.condition
    | none => false

/-- A warrant cut from its leading end (R106 to R109). A new limit behind the rear leaves the warrant no track, as one
that is not beyond the base (notes/assumptions/21.md). -/
def cutFromLead (W : World) (d : UnitDemand) (F : Fleet) (i : SlotId) (w : Warrant) : Fleet × Bool :=
  let c := w.carriage
  let k := F.cars[c]
  let base := k.lead w.dir
  let ahead := inOrder w.dir ((spanUnits W F w).filter (fun u => beyond w.dir (u.far w.dir) base))
  match ahead.find? (d.affects W k.cfg.run) with
  | none => (F, false)
  | some u =>
    let n := u.near w.dir
    let front := if F.inRunOut c && w.state != .suspended then base else k.front.getD base
    if atOrBeyond w.dir front n then (trip W F c d.kind k.lastV true, false)
    else
      let limit := onward w.dir n (-1)
      if beyond w.dir limit base && !beyond w.dir w.rear limit then (shorten W F i limit, true)
      else if standstill k.lastV then (retire W F i .cutOff, true)
      else (markWarrant W F i .cutOff, true)

/-- A suspended warrant cut from its rear (R106, R110). One that carries retire-on-stop, and whose rear unit is affected,
retires COND_LOST or CUT_OFF all the same, as R110 and R133 say and against the last line of R89
(notes/assumptions/47.md). -/
def cutFromRear (W : World) (d : UnitDemand) (F : Fleet) (i : SlotId) (w : Warrant) : Fleet × Bool :=
  let run := (F.cars[w.carriage]).cfg.run
  let units := inOrder w.dir (spanUnits W F w)
  match units.find? (d.affects W run) with
  | none => (F, false)
  | some u =>
    if u.num = (runOf W F w.carriage).numAt w.rear then (retire W F i d.lost, true)
    else (shorten W F i (onward w.dir (u.near w.dir) (-1)), true)

/-- One warrant under a cut to unit (R105). -/
def cutUnitStep (W : World) (d : UnitDemand) (F : Fleet) (h : Handle) : Fleet × Bool :=
  match F.live h with
  | none => (F, false)
  | some w =>
    if w.state != .suspended || supervisesRunOut F w.carriage h then cutFromLead W d F h.slot w
    else cutFromRear W d F h.slot w

/-- A cut to unit demand, handled whole (R104). -/
def cutToUnit (W : World) (d : UnitDemand) (F : Fleet) : Fleet :=
  let (G, reached) := cutCars (fun c F => cutEach (cutUnitStep W d) c (warrantsOf F c) F) (List.finRange 16) F
  raiseCuts G d.source reached

/-- The demand of a condition turned FALSE (R133). -/
def conditionDemand (n : CondId) : UnitDemand :=
  { bay := none, condition := some n, source := .condition n, kind := .condition, lost := .condLost }

/-- The demand of a bay taken out of service (R16). -/
def serviceDemand (run : RunId) (bay : Nat) : UnitDemand :=
  { bay := some (run, bay), condition := none, source := .service, kind := .service, lost := .cutOff }

/-! ## Cut to front (R111, R112) -/

/-- A cut to front that marks nothing: a nearer limit shortens the warrant and raises CUT_BACK, and one that is kept changes
nothing (R111, R112). -/
def cutFront (W : World) (source : CutSource) (F : Fleet) (i : SlotId) (w : Warrant) : Fleet :=
  let limit := cutLimit W F w
  if limit = w.limit then F else raiseCuts (shorten W F i limit) source [(w.carriage, F.handleOf i)]

/-- A cut to front with a mark: at standstill the warrant retires at once (R112). -/
def cutFrontMarking (W : World) (F : Fleet) (i : SlotId) (w : Warrant) (reason : Reason) : Fleet :=
  if standstill (F.cars[w.carriage]).lastV then retire W F i reason else markWarrant W F i reason

/-- The ESTOP demand on one carriage's current warrant (R153 step 3). -/
def estopStep (W : World) (F : Fleet) (h : Handle) : Fleet × Bool :=
  match F.live h with
  | some w => (cutFrontMarking W F h.slot w .estop, true)
  | none => (F, false)

/-- The cut to front of the ESTOP line: every current warrant, with mark ESTOP (R153). -/
def cutForEstop (W : World) (F : Fleet) : Fleet × List Reached :=
  cutCars (fun c F => cutEach (estopStep W) c (F.cars[c]).current.toList F) (List.finRange 16) F

/-! ## Wind (R140 to R143) -/

/-- The rank of a wind state (R134). -/
def WindState.rank : WindState → Nat
  | .calm => 0
  | .breeze => 1
  | .gale => 2
  | .unknown => 2
  | .storm => 3

/-- A rise into `entered` reaches current warrants of this direction and class on an EXPOSED run (R141, R142). A rise
into BREEZE reaches none. -/
def windReachesCurrent (entered : WindState) (isOpening : Bool) (k : Cls) : Bool :=
  match entered with
  | .storm => isOpening || k != .emergency
  | .gale => isOpening
  | .unknown => isOpening
  | .calm => false
  | .breeze => false

/-- A rise into `entered` reaches suspended warrants of this direction on an EXPOSED run (R141, R142). -/
def windReachesSuspended (entered : WindState) (isOpening : Bool) : Bool :=
  match entered with
  | .storm => true
  | .gale => isOpening
  | .unknown => isOpening
  | .calm => false
  | .breeze => false

/-- A suspended warrant that a rise reaches (R140, R143). One that carries retire-on-stop and supervises no run-out retires
WIND all the same, as R140 says and against the last line of R89 (notes/assumptions/47.md). -/
def windSuspended (W : World) (F : Fleet) (h : Handle) (w : Warrant) : Fleet :=
  raiseCuts (if supervisesRunOut F w.carriage h then markWarrant W F h.slot .wind else retire W F h.slot .wind)
    .wind [(w.carriage, h)]

/-- One warrant under a rise of the wind state, and whether the rise reaches it (R140 to R143). A current warrant is reached
whether its limit moves or not (notes/assumptions/46.md). -/
def windStep (W : World) (entered : WindState) (F : Fleet) (h : Handle) : Fleet × Bool :=
  match F.live h with
  | none => (F, false)
  | some w =>
    let r := runOf W F w.carriage
    let isOpening := opening r w.dir
    if !r.exposed then (F, false)
    else if w.state = .suspended then
      if windReachesSuspended entered isOpening then (windSuspended W F h w, true) else (F, false)
    else if windReachesCurrent entered isOpening w.cls then (cutFront W .wind F h.slot w, true)
    else (F, false)

/-- The demand of a rise into `entered`, with the warrants it reached (R140). -/
def cutForWind (W : World) (entered : WindState) (F : Fleet) : Fleet × List Reached :=
  cutCars (fun c F => cutEach (windStep W entered) c (warrantsOf F c) F) (List.finRange 16) F

/-- The carriage and the handle of the last warrant reached, or none (R165). -/
def lastReached (reached : List Reached) : Option CarId × Option Handle :=
  match reached.getLast? with
  | some (c, h) => (some c, some h)
  | none => (none, none)

/-- A change of wind state from `old` acts; `W` holds the new state (R140 to R142). -/
def windChanged (W : World) (old : WindState) (F : Fleet) : Fleet :=
  let new := W.wind.state
  if old = new then F
  else
    let F1 := F.raise { carriage := none, handle := none, value := .wind old new W.wind.gust }
    if old.rank < new.rank then
      let (G, reached) := cutForWind W new F1
      if old.rank ≤ 1 ∧ 2 ≤ new.rank then
        G.raise { carriage := (lastReached reached).1, handle := (lastReached reached).2,
                  value := .closeCall new reached.length }
      else G
    else F1

/-! ## The release of MAINT_KEY (R147) -/

/-- Step 2 on one suspended warrant (R143, R147). One that carries retire-on-stop retires KEY_LOST all the same, as R147
says and against the last line of R89 (notes/assumptions/47.md). -/
def keySuspendedStep (W : World) (F : Fleet) (h : Handle) : Fleet × Bool :=
  match F.live h with
  | none => (F, false)
  | some w =>
    if w.cls = .maintenance ∧ w.state = .suspended then
      if supervisesRunOut F w.carriage h then (markWarrant W F h.slot .keyLost, true)
      else (retire W F h.slot .keyLost, true)
    else (F, false)

/-- Step 3 on one current warrant (R147). -/
def keyCurrentStep (W : World) (F : Fleet) (h : Handle) : Fleet × Bool :=
  match F.live h with
  | none => (F, false)
  | some w =>
    if w.cls = .maintenance ∧ w.state ≠ .suspended then
      (cutFrontMarking W (F.addHold w.carriage .keyLost) h.slot w .keyLost, true)
    else (F, false)

/-- The warrants of two passes brought into the order of R165: by carriage, the first pass before the second. -/
def byCarriage (first second : List Reached) : List Reached :=
  (List.finRange 16).flatMap (fun c => first.filter (fun x => x.1 == c) ++ second.filter (fun x => x.1 == c))

/-- Steps 2 to 4 of the release of MAINT_KEY (R147). -/
def cutForKey (W : World) (F : Fleet) : Fleet :=
  let (F2, first) := cutCars (fun c F => cutEach (keySuspendedStep W) c (F.cars[c]).stack F) (List.finRange 16) F
  let (F3, second) :=
    cutCars (fun c F => cutEach (keyCurrentStep W) c (F.cars[c]).current.toList F) (List.finRange 16) F2
  let reached := byCarriage first second
  (raiseCuts F3 .keyLost reached).raise
    { carriage := (lastReached reached).1, handle := (lastReached reached).2, value := .keyLost reached.length }

end Sys2Proof.Machine
end

