-- ==== Sys2Proof/Machine/Operands.lean ====
section
/-! DEFINITION. The codes of chapters 10.6 and 10.7, read from request fields and written into reply bodies, and the
bytes of replies. -/

namespace Sys2Proof.Machine

/-! ## Codes (10.6, 10.7) -/

/-- A yes-or-no field: 1 yes, 0 no, anything else neither (10.5). -/
def yesNo (x : Nat) : Option Bool :=
  match x with
  | 0 => some false
  | 1 => some true
  | _ => none

/-- A class coded 1 to 4. -/
def clsOf (x : Nat) : Option Cls :=
  match x with
  | 1 => some .auto
  | 2 => some .operator
  | 3 => some .maintenance
  | 4 => some .emergency
  | _ => none

/-- A direction coded 1 or 2. -/
def dirOf (x : Nat) : Option Dir :=
  match x with
  | 1 => some .up
  | 2 => some .down
  | _ => none

/-- An exposure coded 1 EXPOSED or 2 SHELTERED. -/
def exposureOf (x : Nat) : Option Bool :=
  match x with
  | 1 => some true
  | 2 => some false
  | _ => none

/-- An access coded 1 to 3. -/
def accessOf (x : Nat) : Option Access :=
  match x with
  | 1 => some .deny
  | 2 => some .creep
  | 3 => some .full
  | _ => none

/-- Four access entries in class order. -/
def accessSetOf (a o m e : Nat) : Option AccessSet :=
  match accessOf a, accessOf o, accessOf m, accessOf e with
  | some a, some o, some m, some e => some { auto := a, operator := o, maintenance := m, emergency := e }
  | _, _, _, _ => none

/-- A yes-or-no value as a byte's number. -/
def bit (b : Bool) : Nat := if b then 1 else 0

/-- Status codes (10.6). -/
def Status.code : Status → Nat
  | .done => 0x00
  | .partially => 0x01
  | .clamped => 0x02
  | .badForm => 0x10
  | .badTarget => 0x11
  | .badState => 0x12
  | .noMove => 0x13
  | .portDenied => 0x14
  | .locked => 0x15
  | .unlocked => 0x16
  | .held => 0x17
  | .tripped => 0x18
  | .hasWarrant => 0x19
  | .tableFull => 0x1A
  | .stackFull => 0x1B
  | .blocked => 0x1C
  | .stale => 0x1D
  | .offline => 0x1E
  | .notOwner => 0x1F
  | .inUse => 0x20
  | .busy => 0x21
  | .notStopped => 0x22
  | .stillPresent => 0x23
  | .keyAbsent => 0x24
  | .mapFault => 0x25
  | .nothingPending => 0x26

/-- Blocker codes (10.6). -/
def Blocker.code : Blocker → Nat
  | .service => 1
  | .ceiling => 2
  | .access => 3
  | .condition => 4
  | .wind => 5
  | .maint => 6
  | .zone => 7
  | .occupied => 8
  | .check => 9

/-- Carriage states (10.7). -/
def CarState.code : CarState → Nat
  | .unconfigured => 1
  | .offline => 2
  | .standing => 3
  | .moving => 4
  | .tripped => 5

/-- Warrant states (10.7). -/
def WarrantState.code : WarrantState → Nat
  | .granted => 1
  | .active => 2
  | .suspended => 3

/-- Classes (10.7). -/
def Cls.code : Cls → Nat
  | .auto => 1
  | .operator => 2
  | .maintenance => 3
  | .emergency => 4

/-- Directions (10.7). -/
def Dir.code : Dir → Nat
  | .up => 1
  | .down => 2

/-- Accesses (10.7). -/
def Access.code : Access → Nat
  | .deny => 1
  | .creep => 2
  | .full => 3

/-- Wind states (10.7). -/
def WindState.code : WindState → Nat
  | .unknown => 1
  | .calm => 2
  | .breeze => 3
  | .gale => 4
  | .storm => 5

/-- Trip kinds (10.7). -/
def TripKind.code : TripKind → Nat
  | .skew => 1
  | .offRun => 2
  | .intrusion => 3
  | .overrun => 4
  | .brakeCurve => 5
  | .overspeed => 6
  | .reverse => 7
  | .unwarranted => 8
  | .condition => 9
  | .service => 10

/-- Retire reasons (10.7). -/
def Reason.code : Reason → Nat
  | .complete => 1
  | .released => 2
  | .expired => 3
  | .tripped => 4
  | .cutOff => 5
  | .overtaken => 6
  | .resumeFail => 7
  | .condLost => 8
  | .wind => 9
  | .keyLost => 10
  | .estop => 11
  | .restart => 12

/-- Ports (10.7). -/
def portCode : Port → Nat
  | .openPort => 1
  | .assured => 2

/-- Frame faults (10.7). -/
def FrameFault.code : FrameFault → Nat
  | .crc => 1
  | .length => 2
  | .short => 3

/-- A hold set as one byte: the sum of its causes' values (10.7). -/
def HoldSet.code (h : HoldSet) : Nat :=
  bit h.trip + 2 * bit h.mute + 4 * bit h.estop + 8 * bit h.openHold + 16 * bit h.assuredHold +
    32 * bit h.reversal + 64 * bit h.keyLost

/-- The code of an optional enumeration: 0 is none (10.7). -/
def codeOr0 {α : Type} (code : α → Nat) (x : Option α) : Nat :=
  match x with
  | some a => code a
  | none => 0

/-- A cut-back source: its code and, for CONDITION, the condition number (10.7). -/
def CutSource.bytes : CutSource → List Byte
  | .condition n => be 1 1 ++ be 1 n.val
  | .service => be 1 2
  | .wind => be 1 3
  | .estop => be 1 4
  | .keyLost => be 1 5

/-! ## Handles, positions and notice values in replies (10.2, 10.6) -/

/-- A handle: the slot, then the generation; slot 0xFF with generation 0 is none (10.2). -/
def handleBytes : Option Handle → List Byte
  | some h => be 1 h.slot.val ++ [h.generation]
  | none => [0xFF, 0x00]

/-- A confirm point in 3 bytes, 0xFFFFFF for none (10.6). The point -1, beside the lower end of the run, has no code of its
own: that it is sent as 0x000000, as position 0 is, is the model's choice (notes/assumptions/45.md). -/
def confirmBytes : Option Int → List Byte
  | some x => be 3 x.toNat
  | none => [0xFF, 0xFF, 0xFF]

/-- A gust in 2 bytes, 0xFFFF when absent (10.6). -/
def gustBytes : Option Nat → List Byte
  | some g => be 2 g
  | none => [0xFF, 0xFF]

/-- The values of a detail, in order: enumerations and counts 1 byte, a gust 2, a limit 3, a tick 4 (10.6). -/
def NoticeValue.packed : NoticeValue → List Byte
  | .trip k => be 1 k.code
  | .cutBack src => src.bytes
  | .expired t => be 4 t.toNat
  | .complete l => be 3 l.toNat
  | .mute t => be 4 t.toNat
  | .wind old new gust => be 1 old.code ++ be 1 new.code ++ gustBytes gust
  | .closeCall st n => be 1 st.code ++ be 1 n
  | .condition n v => be 1 n.val ++ be 1 (bit v)
  | .resumed short blk => be 1 (bit short) ++ be 1 (codeOr0 Blocker.code blk)
  | .resumeFail reason blk => be 1 reason.code ++ be 1 (codeOr0 Blocker.code blk)
  | .keyLost n => be 1 n
  | .warning l => be 3 l.toNat
  | .estop n => be 1 n
  | .downshift l => be 1 l
  | .frameError p fault => be 1 (portCode p) ++ be 1 fault.code

/-- A list of bytes brought to length `n`, the unused ones 0. -/
def padTo (n : Nat) (bytes : List Byte) : List Byte := bytes ++ List.replicate (n - bytes.length) 0

/-- One entry of the `notices` reply: kind, count, carriage, handle, value (10.6). -/
def noticeEntry (kind : Fin 15) (n : Notice) : List Byte :=
  be 1 kind.val ++ be 1 n.count ++
    match n.detail with
    | some d =>
      (match d.carriage with
       | some c => be 1 c.val
       | none => [0xFF]) ++ handleBytes d.handle ++ padTo 4 d.value.packed
    | none => [0xFF] ++ handleBytes none ++ padTo 4 []

/-! ## Answers -/

/-- The status and the body a request's rule gives its reply. -/
structure Answer where
  status : Status
  body : List Byte
  deriving DecidableEq, Repr

/-- A refusal with an empty body, or a success without fields (R175, 10.6). -/
def plain (st : Status) : Answer := { status := st, body := [] }

/-- BLOCKED carries the blocker in one byte (R175). -/
def blockedBy (k : Option Blocker) : Answer := { status := .blocked, body := be 1 (codeOr0 Blocker.code k) }

/-- The port a request arrived on, as the origin of a warrant (R63, R172). -/
def originOf (p : Port) (station : Byte) : Origin :=
  match p with
  | .openPort => .openPort station
  | .assured => .assured

/-- The bytes of a reply frame (10.2). -/
def Reply.bytes (r : Reply) : List Byte :=
  frameBytes 0xA6 r.station r.tag (BitVec.ofNat 8 r.status.code) r.body

end Sys2Proof.Machine
end

