-- ==== Sys2Proof/Machine/Ports.lean ====
section
/-! DEFINITION. The ports: frame assembly, receive queues, replies, how a request takes effect, and the commands of the
start, the ports and the Tick Counter (chapter 10). -/

namespace Sys2Proof.Machine

/-! ## The two ports of the state -/

/-- The state of port `p`. -/
def State.port (s : State) : Port → PortState
  | .openPort => s.openPort
  | .assured => s.assured

/-- Port `p` changed by `f`. -/
def State.modPort (s : State) (p : Port) (f : PortState → PortState) : State :=
  match p with
  | .openPort => { s with openPort := f s.openPort }
  | .assured => { s with assured := f s.assured }

/-- The queue places held: by waiting frames and by answered ones whose reply has not been sent (R174). -/
def PortState.places (q : PortState) : Nat := q.queue.length + (q.replies.filter (fun r => !r.overflow)).length

/-- The BUSY replies of overflowing frames that wait (R174). -/
def PortState.busyWaiting (q : PortState) : Nat := (q.replies.filter (fun r => r.overflow)).length

/-- A notice raised outside a request's rule. -/
def State.raise (s : State) (d : Detail) : State :=
  { s with records := { s.records with fleet := s.records.fleet.raise d } }

/-! ## How a request takes effect (R175) -/

/-- A formed reply joins the port's replies (R174). -/
def PortState.form (q : PortState) (r : Reply) : PortState := { q with replies := q.replies ++ [r] }

/-- The reply to a frame that has taken effect (R175). -/
def replyTo (f : Frame) (a : Answer) : Reply :=
  { station := f.station, tag := f.tag, status := a.status, body := a.body, overflow := false }

/-- The checks of R175 before a request's own rule: the body's length, and on the Open Port the origin station. Then
the rule. -/
def judge {α : Type} (decode : List Byte → Option α) (rule : Origin → α → Records → Records × Answer) (p : Port)
    (f : Frame) (r : Records) : Records × Answer :=
  match decode f.body with
  | none => (r, plain .badForm)
  | some x => if p = .openPort ∧ 63 < f.station.toNat then (r, plain .badForm) else rule (originOf p f.station) x r

/-- The oldest frame `f` of port `p` has taken effect with records `r` and answer `a`, and `rest` still wait: the reply
is formed, and the lines follow the records (R150, R167, R174, R175). -/
def State.answer (s : State) (p : Port) (f : Frame) (rest : List Frame) (r : Records) (a : Answer) : State :=
  (({ s with records := r } : State).modPort p
    (fun q => ({ q with queue := rest } : PortState).form (replyTo f a))).drive

/-- The oldest frame of port `p`'s queue takes effect when it is the frame of command `i`. Otherwise the command names
no event and nothing happens; nor while the RESET line is asserted (R174, R175, R179; notes/assumptions/4.md). -/
def serve (i : Instr) (p : Port) (act : Frame → Records → Records × Answer) (s : State) : State :=
  if s.resetLine then s
  else
    match (s.port p).queue with
    | [] => s
    | f :: rest =>
      if commandOf p f.code f.body = i then
        s.answer p f rest (act f s.records).1 (act f s.records).2
      else s

/-! ## Receiving (R173, R174) -/

/-- FRAME_ERROR (R173). -/
def frameError (p : Port) (fault : FrameFault) (s : State) : State :=
  s.raise { carriage := none, handle := none, value := .frameError p fault }

/-- The port returns to hunting; the bytes of a discarded frame are not searched again (R173). -/
def toHunting (p : Port) (s : State) : State := s.modPort p (fun q => { q with assembling := [] })

/-- A checked frame is queued, or answered BUSY, or with 8 BUSY replies waiting discarded (R174). -/
def takeChecked (f : Frame) (q : PortState) : PortState :=
  if q.places < 8 then { q with queue := q.queue ++ [f] }
  else if q.busyWaiting < 8 then
    q.form { station := f.station, tag := f.tag, status := .busy, body := [], overflow := true }
  else q

/-- The fields of a whole frame. -/
def frameOf (bytes : List Byte) : Frame :=
  { station := bytes.getD 2 0, tag := bytes.getD 3 0, code := bytes.getD 4 0,
    body := (bytes.drop 5).take (bytes.length - 7) }

/-- A whole frame ends the assembly: with a matching CRC it is checked and taken, else it ends with fault CRC (R173).
On the Assured Port the bytes that follow it in the transfer are dropped. -/
def wholeFrameIn (p : Port) (bytes : List Byte) (s : State) : State :=
  let s1 := toHunting p s
  let s2 := match p with
    | .openPort => s1
    | .assured => { s1 with transfer := s1.transfer.map (fun t => { t with frameTaken := true }) }
  if crcMatches bytes then s2.modPort p (takeChecked (frameOf bytes)) else frameError p .crc s2

/-- More than 5 ms have passed since the last byte of the Open Port's frame in progress (R173, R180). -/
def gapOver (s : State) : Bool :=
  !s.openPort.assembling.isEmpty && decide (5 < sinceTick s.records.world.now s.openPort.lastByte)

/-- The Open Port's frame in progress ends with fault SHORT (R173). -/
def endShort (p : Port) (s : State) : State := frameError p .short (toHunting p s)

/-- A byte joins the frame in progress, which may end by it; while hunting a byte other than 0xA5 is dropped (R173). -/
def assemble (p : Port) (b : Byte) (s : State) : State :=
  let s1 := s.modPort p (fun q => { q with lastByte := s.records.world.now })
  let sofar := (s.port p).assembling
  let bytes := sofar ++ [b]
  match sofar with
  | [] => if b = 0xA5 then s1.modPort p (fun q => { q with assembling := bytes }) else s
  | [_] =>
    if lengthTooLong b then frameError p .length (toHunting p s1)
    else s1.modPort p (fun q => { q with assembling := bytes })
  | _ :: n :: _ =>
    if bytes.length = n.toNat + 7 then wholeFrameIn p bytes s1
    else s1.modPort p (fun q => { q with assembling := bytes })

/-! ## Sending (R176) -/

/-- The oldest waiting reply has been sent: its queue place, or its BUSY place, is free (R176). -/
def PortState.sendOldest (q : PortState) : PortState := { q with replies := q.replies.drop 1 }

/-- The bytes of the oldest waiting reply. -/
def PortState.oldestBytes (q : PortState) : List Byte :=
  match q.replies with
  | r :: _ => r.bytes
  | [] => []

/-- The master clocks `n` bytes of the transfer; the reply being shifted out is sent with its last byte (R176). -/
def clock (n : Nat) (s : State) : State :=
  match s.transfer with
  | none => s
  | some t =>
    let k := t.clocked + n
    if t.shifting && decide (s.assured.oldestBytes.length ≤ k) then
      { s with transfer := some { t with clocked := k, shifting := false }, assured := s.assured.sendOldest }
    else { s with transfer := some { t with clocked := k } }

/-- The byte the part shifts out next: of the reply being shifted, else 0x00 (R176). -/
def sdoByte (s : State) : Byte :=
  match s.transfer with
  | some t => if t.shifting then s.assured.oldestBytes.getD t.clocked 0 else 0
  | none => 0

/-- An Assured Port byte can be taken: a transfer is in progress and no whole frame has been shifted in (R173). -/
def transferTakes (s : State) : Bool :=
  match s.transfer with
  | some t => !t.frameTaken
  | none => false

/-! ## The commands of the ports -/

/-- The port as its next byte finds it: an Open Port byte that comes more than 5 ms after the one before it finds the
frame in progress ended SHORT (R173; notes/assumptions/20.md). -/
def afterGap (p : Port) (s : State) : State :=
  match p with
  | .openPort => if gapOver s then endShort .openPort s else s
  | .assured => s

/-- A byte arrives on a port that is not held in reset (R173). -/
def byteIn (p : Port) (b : Byte) (s : State) : State :=
  match p with
  | .openPort => (assemble .openPort b (afterGap .openPort s)).drive
  | .assured =>
    if s.transfer.isNone then s
    else if transferTakes s then (assemble .assured b (clock 1 s)).drive
    else (clock 1 s).drive

/-- BYTE_RECEIVED (R173). -/
def execByteReceived (p : Port) (b : Byte) (s : State) : Host.Outcome State Fault Refusal :=
  .next (if s.resetLine then s else byteIn p b s)

/-- The bytes `bytes` can be what port `p` has now assembled: they begin with the frame in progress, and on the Assured
Port a transfer takes them (R173). -/
def canAssemble (p : Port) (bytes : List Byte) (s : State) : Bool :=
  (s.port p).assembling.isPrefixOf bytes &&
    match p with
    | .openPort => true
    | .assured => transferTakes s

/-- The bytes of `bytes` not yet assembled are clocked in (R172, R176). -/
def clockRest (p : Port) (bytes : List Byte) (s : State) : State :=
  match p with
  | .openPort => s
  | .assured => clock (bytes.length - s.assured.assembling.length) s

/-- The last byte of port `p` arrives now. -/
def stampByte (p : Port) (s : State) : State := s.modPort p (fun q => { q with lastByte := s.records.world.now })

/-- The bytes `bytes` arrive on port `p` and end its frame by `finish`, when they can be what the port assembles. -/
def endFrame (p : Port) (bytes : List Byte) (finish : State → State) (s : State) : State :=
  let s1 := afterGap p s
  if canAssemble p bytes s1 then (finish (stampByte p (clockRest p bytes s1))).drive else s

/-- FRAME_RECEIVED (R173, R174): the rest of the frame arrives, and the whole frame ends the assembly. -/
def execFrameReceived (p : Port) (bytes : List Byte) (s : State) : Host.Outcome State Fault Refusal :=
  .next (if s.resetLine || !wholeFrame bytes then s else endFrame p bytes (wholeFrameIn p bytes) s)

/-- FRAME_LENGTH_FAULT (R173): the start byte and the length byte `n` have come. -/
def execFrameLengthFault (p : Port) (n : Byte) (s : State) : Host.Outcome State Fault Refusal :=
  .next (if s.resetLine || !lengthTooLong n then s
    else endFrame p [0xA5, n] (fun s1 => frameError p .length (toHunting p s1)) s)

/-- CHARACTER_GAP_EXPIRY (R173): the Open Port's frame in progress ends with fault SHORT. -/
def execCharacterGapExpiry (cause : ShortCause) (s : State) : Host.Outcome State Fault Refusal :=
  .next (if s.resetLine || s.openPort.assembling.isEmpty then s
    else match cause with
      | .gap => if gapOver s then (endShort .openPort s).drive else s
      | .noStopBit => (endShort .openPort s).drive)

/-- ASSURED_TRANSFER_END (R173, R176): a frame cut short ends with fault SHORT; a reply not wholly clocked out stays
oldest. -/
def execAssuredTransferEnd (s : State) : Host.Outcome State Fault Refusal :=
  .next (if s.resetLine || s.transfer.isNone then s
    else
      let s1 := if s.assured.assembling.isEmpty then s else endShort .assured s
      ({ s1 with transfer := none } : State).drive)

/-- REPLY_SENT (R176): on the Assured Port the master has clocked out the rest of the reply being shifted. -/
def execReplySent (p : Port) (s : State) : Host.Outcome State Fault Refusal :=
  .next (if s.resetLine then s
    else match p with
      | .openPort => ({ s with openPort := s.openPort.sendOldest } : State).drive
      | .assured =>
        match s.transfer with
        | some t => if t.shifting then (clock (s.assured.oldestBytes.length - t.clocked) s).drive else s
        | none => s)

/-- SEL_ASSERTED (R176): the oldest waiting reply, if any, begins to be shifted out from byte 0. -/
def execSelAsserted (s : State) : Host.Outcome State Fault Refusal :=
  .next (if s.resetLine || s.transfer.isSome then s
    else ({ s with transfer := some { shifting := !s.assured.replies.isEmpty, clocked := 0, frameTaken := false } } :
      State).drive)

/-- UNKNOWN_REQUEST_CODE (R175): refused BAD_FORM. -/
def execUnknownRequestCode (p : Port) (s : State) : Host.Outcome State Fault Refusal :=
  .next (serve (.unknownRequestCode p) p (fun _ r => (r, plain .badForm)) s)

/-! ## Start and reset (R179, R180) -/

/-- The power-on records, with what follows the input lines (R131, R138, R144, R153). -/
def startRecords (pins : Pins) (unstated : Nat) : Records :=
  { world := { World.initial with
      conditions := Vector.ofFn (fun n : CondId => decide (n.val < 8) && pins.cond.getLsbD n.val)
      wind := { Wind.initial with state := if pins.storm then .storm else .unknown, stormLine := pins.storm }
      keyPresent := pins.maintKey
      estopLine := pins.estop },
    fleet := Fleet.initial, unstated := unstated }

/-- Every block at its power-on values, both queues and reply lists empty, both ports hunting (R179). -/
def started (pins : Pins) (rate resetLine : Bool) (s : State) : State :=
  State.drive { records := startRecords pins s.records.unstated, openPort := PortState.initial,
                assured := PortState.initial, transfer := none, rateHigh := rate, resetLine := resetLine,
                holdLines := s.holdLines, attn := s.attn, pending := s.pending }

/-- POWER_ON (R172, R179): power is applied or the RESET line is released; RATE is sampled. -/
def execPowerOn (pins : Pins) (s : State) : Host.Outcome State Fault Refusal :=
  .next (started pins pins.rate false s)

/-- The levels of the input lines as the state knows them. -/
def State.pins (s : State) : Pins :=
  { estop := s.records.world.estopLine, maintKey := s.records.world.keyPresent, storm := s.records.world.wind.stormLine,
    cond := BitVec.ofFnLE (fun n : Fin 8 => s.records.world.conditions[n.castLE (by decide : 8 ≤ 16)]),
    rate := s.rateHigh }

/-- RESET_ASSERTED (R179): every block takes its power-on values at once; the Open Port rate holds until RATE is next
sampled (R172). -/
def execResetAsserted (s : State) : Host.Outcome State Fault Refusal :=
  .next (started s.pins s.rateHigh true s)

/-- TICK (R180). While the RESET line is asserted the counter stays at its start value (notes/assumptions/6.md). -/
def execTick (s : State) : Host.Outcome State Fault Refusal :=
  .next (if s.resetLine then s
    else { s with records := { s.records with world := { s.records.world with now := s.records.world.now + 1 } } })

end Sys2Proof.Machine
end

