-- ==== Sys2Proof/Machine/MapRequests.lean ====
section
/-! DEFINITION. The map requests: setrun, setbay, setzone, service, ceiling, lock, unlock, marks (chapter 1). -/

namespace Sys2Proof.Machine

/-! ## Map records -/

/-- The records with a changed map. -/
def Records.withMap (r : Records) (m : TrackMap) : Records := { r with world := { r.world with map := m } }

/-- A run record written. -/
def TrackMap.setRun (m : TrackMap) (i : RunId) (run : Run) : TrackMap := { m with runs := m.runs.set i run }

/-- A zone record written. -/
def TrackMap.setZone (m : TrackMap) (z : ZoneId) (zone : Zone) : TrackMap := { m with zones := m.zones.set z zone }

/-- Bay `b` of run `i` changed by `f`. -/
def TrackMap.modBay (m : TrackMap) (i : RunId) (b : Nat) (f : Bay → Bay) : TrackMap :=
  m.setRun i { m.runs[i] with bays := (m.runs[i]).bays.modify b f }

/-- A request of a map edit meets the lock state before its fields (R11). -/
def lockFirst (r : Records) (rest : Records × Answer) : Records × Answer :=
  if r.world.map.locked then (r, plain .locked) else rest

/-- A request of the Assured Port alone (R11). -/
def assuredOnly (o : Origin) (r : Records) (rest : Records × Answer) : Records × Answer :=
  match o with
  | .openPort _ => (r, plain .portDenied)
  | .assured => rest

/-! ## setrun (R12) -/

/-- The run record a `setrun` with defined yes writes: the bays of a run defined before are kept (R12). -/
def setRunRecord (old : Run) (d : Dir) (exposed : Bool) (clearance : Nat) : Run :=
  { defined := true, bays := if old.defined then old.bays else [], closeDir := d, exposed := exposed,
    clearance := clearance }

/-- The rule of `setrun` (R12). -/
def setrunRule (_ : Origin) (q : SetRunBody) (r : Records) : Records × Answer :=
  lockFirst r <|
    match inTable 8 q.run, yesNo q.defined with
    | some i, some defined =>
      if 5000 < q.clearance then (r, plain .badForm)
      else if defined then
        match dirOf q.closeDir, exposureOf q.exposure with
        | some d, some e =>
          (r.withMap (r.world.map.setRun i (setRunRecord r.world.map.runs[i] d e q.clearance)), plain .done)
        | _, _ => (r, plain .badForm)
      else (r.withMap (r.world.map.setRun i Run.initial), plain .done)
    | _, _ => (r, plain .badForm)

/-- SETRUN. -/
def execSetrun (p : Port) (s : State) : Host.Outcome State Fault Refusal :=
  .next (serve (.setrun p) p (judge decodeSetRun setrunRule p) s)

/-! ## setbay (R13, R14) -/

/-- An optional number field: 0xFF none, else below `n`, else out of range (10.5). -/
def optional (n x : Nat) : Option (Option (Fin n)) :=
  if x = 0xFF then some none
  else match inTable n x with
    | some i => some (some i)
    | none => none

/-- The shape a `setbay` carries, none when out of the ranges of R2. -/
def shapeOf (kind length count : Nat) : Option BayShape :=
  match kind with
  | 1 => if 200 ≤ length then some (.plain length) else none
  | 2 => if 100 ≤ length ∧ length ≤ 4095 ∧ 2 ≤ count ∧ count ≤ 32 then some (.celled length count) else none
  | _ => none

/-- The bay record a `setbay` writes, both marks clear; none when a field is out of range (R13). -/
def bayOf (q : SetBayBody) : Option Bay :=
  match shapeOf q.kind q.length q.count, accessSetOf q.auto q.operator q.maintenance q.emergency, yesNo q.inService,
      yesNo q.entryCheck, optional 16 q.condition, optional 32 q.zone with
  | some shape, some access, some inService, some entryCheck, some condition, some zone =>
    if q.ceiling ≤ 1000 then
      some { shape := shape, ceiling := q.ceiling, access := access, inService := inService, entryCheck := entryCheck,
             condition := condition, zone := zone, traversed := false, stoppedIn := false }
    else none
  | _, _, _, _, _, _ => none

/-- Bay `b` overwritten, or appended when `b` is the bay count (R13). -/
def putBay (run : Run) (b : Nat) (bay : Bay) : Run :=
  { run with bays := if b < run.bays.length then run.bays.set b bay else run.bays ++ [bay] }

/-- The rule of `setbay` with kind PLAIN or CELLED (R13). -/
def setbayRule (_ : Origin) (q : SetBayBody) (r : Records) : Records × Answer :=
  lockFirst r <|
    match inTable 8 q.run, bayOf q with
    | some i, some bay =>
      if 47 < q.bay then (r, plain .badForm)
      else
        let run := r.world.map.runs[i]
        if !run.defined then (r, plain .badState)
        else if run.bays.length < q.bay then (r, plain .badTarget)
        else (r.withMap (r.world.map.setRun i (putBay run q.bay bay)), plain .done)
    | _, _ => (r, plain .badForm)

/-- SETBAY. -/
def execSetbay (p : Port) (s : State) : Host.Outcome State Fault Refusal :=
  .next (serve (.setbay p) p (judge decodeSetBay setbayRule p) s)

/-- The rule of `setbay` with kind TRUNCATE (R14). -/
def truncateRule (_ : Origin) (q : SetBayBody) (r : Records) : Records × Answer :=
  lockFirst r <|
    match inTable 8 q.run with
    | some i =>
      if 47 < q.bay then (r, plain .badForm)
      else
        let run := r.world.map.runs[i]
        if !run.defined then (r, plain .badState)
        else if run.bays.length ≤ q.bay then (r, plain .badTarget)
        else (r.withMap (r.world.map.setRun i { run with bays := run.bays.take q.bay }), plain .done)
    | none => (r, plain .badForm)

/-- SETBAY_TRUNCATE. -/
def execSetbayTruncate (p : Port) (s : State) : Host.Outcome State Fault Refusal :=
  .next (serve (.setbayTruncate p) p (judge decodeSetBay truncateRule p) s)

/-! ## setzone (R15) -/

/-- The ceiling override field: 0xFFFF none, else at most 1,000 (R15). -/
def ceilingOverride (x : Nat) : Option (Option Nat) :=
  if x = 0xFFFF then some none else if x ≤ 1000 then some (some x) else none

/-- The access override fields; the entries of a body whose override is not present are ignored (R15). -/
def accessOverride (q : SetZoneBody) : Option (Option AccessSet) :=
  match yesNo q.overriding with
  | some true => (accessSetOf q.auto q.operator q.maintenance q.emergency).map some
  | some false => some none
  | none => none

/-- The rule of `setzone` (R15). -/
def setzoneRule (_ : Origin) (q : SetZoneBody) (r : Records) : Records × Answer :=
  lockFirst r <|
    match inTable 32 q.zone, yesNo q.defined, optional 32 q.parent, accessOverride q, ceilingOverride q.ceiling with
    | some z, some defined, some parent, some access, some ceiling =>
      let zone : Zone := if defined then { defined := true, parent := parent, access := access, ceiling := ceiling }
        else Zone.initial
      (r.withMap (r.world.map.setZone z zone), plain .done)
    | _, _, _, _, _ => (r, plain .badForm)

/-- SETZONE. -/
def execSetzone (p : Port) (s : State) : Host.Outcome State Fault Refusal :=
  .next (serve (.setzone p) p (judge decodeSetZone setzoneRule p) s)

/-! ## service and ceiling (R16, R17) -/

/-- The run and bay fields name a bay there is: BAD_FORM beyond the numbers, IN_USE beyond the map (R16, R17). -/
def withBay (r : Records) (run bay : Nat) (k : RunId → Bay → Records × Answer) : Records × Answer :=
  match inTable 8 run with
  | none => (r, plain .badForm)
  | some i =>
    if 47 < bay then (r, plain .badForm)
    else
      let rec' := r.world.map.runs[i]
      match (if rec'.defined then rec'.bay bay else none) with
      | none => (r, plain .inUse)
      | some b => k i b

/-- The rule of `service` (R16). -/
def serviceRule (o : Origin) (q : TripleBody) (r : Records) : Records × Answer :=
  assuredOnly o r <|
    match yesNo q.thd with
    | none => (r, plain .badForm)
    | some v =>
      withBay r q.fst q.snd fun i b =>
        let r1 := r.withMap (r.world.map.modBay i q.snd (fun b => { b with inService := v }))
        if r.world.map.locked && b.inService && !v then
          ({ r1 with fleet := cutToUnit r1.world (serviceDemand i q.snd) r1.fleet }, plain .done)
        else (r1, plain .done)

/-- SERVICE. -/
def execService (p : Port) (s : State) : Host.Outcome State Fault Refusal :=
  .next (serve (.service p) p (judge decodeTriple serviceRule p) s)

/-- The live warrant of slot `i` touches bay `b` of run `run` with its span (R17). -/
def touchesBay (W : World) (F : Fleet) (run : RunId) (b : Nat) (w : Warrant) : Bool :=
  decide ((F.cars[w.carriage]).cfg.run = run) && (spanUnits W F w).any (fun u => u.bay == b)

/-- Every live warrant whose span touches the bay has its ceiling computed afresh (R17, R75). -/
def recomputeCeilings (W : World) (run : RunId) (b : Nat) (F : Fleet) : Fleet :=
  (List.finRange 48).foldl (fun G i =>
    match (G.slots[i]).warrant with
    | some w => if touchesBay W G run b w then receiling W G i else G
    | none => G) F

/-- The rule of `ceiling` (R17). -/
def ceilingRule (o : Origin) (q : CeilingBody) (r : Records) : Records × Answer :=
  assuredOnly o r <|
    if 1000 < q.ceiling then (r, plain .badForm)
    else
      withBay r q.run q.bay fun i b =>
        let r1 := r.withMap (r.world.map.modBay i q.bay (fun b => { b with ceiling := q.ceiling }))
        if r.world.map.locked && b.ceiling != q.ceiling then
          ({ r1 with fleet := recomputeCeilings r1.world i q.bay r1.fleet }, plain .done)
        else (r1, plain .done)

/-- CEILING. -/
def execCeiling (p : Port) (s : State) : Host.Outcome State Fault Refusal :=
  .next (serve (.ceiling p) p (judge decodeCeiling ceilingRule p) s)

/-! ## lock and unlock (R18 to R20) -/

/-- A failed check: its code, the first item and the second or none (R19). That codes 3 and 6 carry the second item
their row of the table names, as code 9 does, is the model's reading (notes/assumptions/43.md). -/
structure MapFault where
  code : Nat
  first : Nat
  second : Option Nat
  deriving DecidableEq, Repr

/-- Code 1 over one run (R19). -/
def runEmpty (m : TrackMap) (i : RunId) : Option MapFault :=
  if (m.runs[i]).defined ∧ (m.runs[i]).bays = [] then some { code := 1, first := i.val, second := none } else none

/-- Code 2 over one run (R19). -/
def runTooLong (m : TrackMap) (i : RunId) : Option MapFault :=
  if (m.runs[i]).defined ∧ 1048576 < (m.runs[i]).length then some { code := 2, first := i.val, second := none } else none

/-- The walk up a zone's chain: parent undefined is code 3, already on the chain code 5, the fifth zone code 4 (R19).
The second item of code 3 is `z`, the zone of the chain whose parent is undefined, as the table of R19 has it: that the
words after the table mean the same zone is the model's reading (notes/assumptions/42.md). -/
def chainWalk (m : TrackMap) (zone : ZoneId) : Nat → List ZoneId → ZoneId → Option MapFault
  | 0, _, _ => some { code := 4, first := zone.val, second := none }
  | fuel + 1, chain, z =>
    match (m.zones[z]).parent with
    | none => none
    | some up =>
      if !(m.zones[up]).defined then some { code := 3, first := zone.val, second := some z.val }
      else if up ∈ chain then some { code := 5, first := zone.val, second := none }
      else if fuel = 0 then some { code := 4, first := zone.val, second := none }
      else chainWalk m zone fuel (up :: chain) up

/-- Codes 3, 4 and 5 of one zone (R19). -/
def zoneFault (m : TrackMap) (z : ZoneId) : Option MapFault :=
  if (m.zones[z]).defined then chainWalk m z 4 [z] z else none

/-- Code 6 over the bays of a run from bay `b` on, with the bay as second item (R19; notes/assumptions/43.md). -/
def bayFaultFrom (m : TrackMap) (i : RunId) : Nat → List Bay → Option MapFault
  | _, [] => none
  | b, bay :: bays =>
    match bay.zone with
    | some z => if (m.zones[z]).defined then bayFaultFrom m i (b + 1) bays
                else some { code := 6, first := i.val, second := some b }
    | none => bayFaultFrom m i (b + 1) bays

/-- Code 6 over one run (R19). -/
def bayFault (m : TrackMap) (i : RunId) : Option MapFault :=
  if (m.runs[i]).defined then bayFaultFrom m i 0 (m.runs[i]).bays else none

/-- Code 7 over one carriage (R19). -/
def carRunFault (W : World) (F : Fleet) (c : CarId) : Option MapFault :=
  if (F.cars[c]).configured ∧ !(runOf W F c).defined then some { code := 7, first := c.val, second := none } else none

/-- The lower end of the home extent (R29). -/
def CarConfig.homeLower (k : CarConfig) : Int := k.homeReference - k.lowerReach

/-- The upper end of the home extent (R29). -/
def CarConfig.homeUpper (k : CarConfig) : Int := k.homeReference + k.upperReach

/-- Code 8 over one carriage (R19). -/
def carHomeFault (W : World) (F : Fleet) (c : CarId) : Option MapFault :=
  let k := (F.cars[c]).cfg
  if (F.cars[c]).configured ∧ (k.homeLower < 0 ∨ (runOf W F c).last < k.homeUpper) then
    some { code := 8, first := c.val, second := none }
  else none

/-- Two carriages' present extents conflict, or touch bays whose chains share a zone (R19, code 9). -/
def extentsClash (W : World) (F : Fleet) (c d : CarId) : Bool :=
  ((F.cars[c]).cfg.run == (F.cars[d]).cfg.run &&
      (occupied W F c).any (fun u => conflictsAny (runOf W F c).clearance u (occupied W F d))) ||
    (extentZones W F c).any (fun z => (extentZones W F d).contains z)

/-- Code 9 of one lower carriage against every higher one (R19). -/
def pairFault (W : World) (F : Fleet) (c : CarId) : Option MapFault :=
  (List.finRange 16).findSome? (fun d =>
    if c < d ∧ (F.cars[c]).configured ∧ (F.cars[d]).configured ∧ extentsClash W F c d then
      some { code := 9, first := c.val, second := some d.val }
    else none)

/-- The lock validation: the first failing item of the first failing check (R19). -/
def lockFault (W : World) (F : Fleet) : Option MapFault :=
  ((List.finRange 8).findSome? (runEmpty W.map)).or <|
  ((List.finRange 8).findSome? (runTooLong W.map)).or <|
  ((List.finRange 32).findSome? (zoneFault W.map)).or <|
  ((List.finRange 8).findSome? (bayFault W.map)).or <|
  ((List.finRange 16).findSome? (carRunFault W F)).or <|
  ((List.finRange 16).findSome? (carHomeFault W F)).or
  ((List.finRange 16).findSome? (pairFault W F))

/-- The lowest-numbered configured carriage whose present extent reaches the zone (R10). -/
def lowestReaching (W : World) (F : Fleet) (z : ZoneId) : Option CarId :=
  (List.finRange 16).find? (fun c => (F.cars[c]).configured && (extentZones W F c).contains z)

/-- The zone holders a successful `lock` sets (R10). -/
def lockHolders (W : World) (F : Fleet) : Fleet := { F with holders := Vector.ofFn (lowestReaching W F) }

/-- MAP_FAULT carries the fault code and its items, 0xFF for an absent one (R175). -/
def mapFaultAnswer (e : MapFault) : Answer :=
  { status := .mapFault, body := be 1 e.code ++ be 1 e.first ++ be 1 (e.second.getD 0xFF) }

/-- The rule of `lock` (R18); with the ESTOP line asserted, ESTOP is added to every configured carriage (R153). -/
def lockRule (o : Origin) (_ : Unit) (r : Records) : Records × Answer :=
  assuredOnly o r <|
    if r.world.map.locked then (r, plain .done)
    else
      match lockFault r.world r.fleet with
      | some e => (r, mapFaultAnswer e)
      | none =>
        let r1 := r.withMap { r.world.map with locked := true }
        let F := lockHolders r1.world r1.fleet
        ({ r1 with fleet := if r1.world.estopLine then F.addHoldAll .estop else F }, plain .done)

/-- LOCK. -/
def execLock (p : Port) (s : State) : Host.Outcome State Fault Refusal :=
  .next (serve (.lock p) p (judge decodeIgnored lockRule p) s)

/-- Every zone holder becomes none (R10). -/
def Fleet.clearHolders (F : Fleet) : Fleet := { F with holders := Vector.replicate 32 none }

/-- The rule of `unlock` (R20). -/
def unlockRule (o : Origin) (_ : Unit) (r : Records) : Records × Answer :=
  assuredOnly o r <|
    if r.fleet.anyLive then (r, plain .busy)
    else if r.world.map.locked then
      ({ r.withMap { r.world.map with locked := false } with fleet := r.fleet.clearHolders }, plain .done)
    else (r, plain .done)

/-- UNLOCK. -/
def execUnlock (p : Port) (s : State) : Host.Outcome State Fault Refusal :=
  .next (serve (.unlock p) p (judge decodeIgnored unlockRule p) s)

/-! ## marks (R22) -/

/-- The reply's list: each bay's traversed and stopped-in mark (R22). -/
def markList (run : Run) : List Byte :=
  if run.defined then run.bays.flatMap (fun b => be 1 (bit b.traversed) ++ be 1 (bit b.stoppedIn)) else []

/-- Every mark of the run cleared (R22). -/
def clearMarks (run : Run) : Run :=
  { run with bays := run.bays.map (fun b => { b with traversed := false, stoppedIn := false }) }

/-- The rule of `marks` (R22). -/
def marksRule (_ : Origin) (q : PairBody) (r : Records) : Records × Answer :=
  match inTable 8 q.fst, yesNo q.snd with
  | some i, some take =>
    let run := r.world.map.runs[i]
    let a : Answer := { status := .done, body := markList run }
    if take then (r.withMap (r.world.map.setRun i (clearMarks run)), a) else (r, a)
  | _, _ => (r, plain .badForm)

/-- MARKS. -/
def execMarks (p : Port) (s : State) : Host.Outcome State Fault Refusal :=
  .next (serve (.marks p) p (judge decodePair marksRule p) s)

end Sys2Proof.Machine
end

