-- ==== Sys2Proof/Machine/CarRequests.lean ====
section
/-! DEFINITION. setcar and report (chapter 2), and the mute expiry. -/

namespace Sys2Proof.Machine

/-! ## setcar (R26 to R29) -/

/-- The home extent as a pose: reference home reference, skew 0 (R27, R29). -/
def CarConfig.homePose (k : CarConfig) : Pose :=
  { reference := k.homeReference, skew := 0, lower := k.homeLower, upper := k.homeUpper }

/-- Every configuration field of a `setcar` with configured yes lies in its range (R23, R26). -/
def setCarInRange (q : SetCarBody) : Bool :=
  decide (1 ≤ q.offsets.length ∧ q.offsets.length ≤ 8 ∧ 1 ≤ q.maxSpeed ∧ q.maxSpeed ≤ 1000 ∧ 1 ≤ q.creepSpeed ∧
    q.creepSpeed ≤ 200 ∧ q.creepSpeed ≤ q.maxSpeed) &&
  decide (10 ≤ q.deceleration ∧ q.deceleration ≤ 2000 ∧ q.reactionTime ≤ 2000 ∧ q.skewLimit ≤ 500 ∧
    50 ≤ q.reportInterval ∧ q.reportInterval ≤ 5000 ∧ q.warningLead ≤ 5000 ∧ q.stopWindow ≤ 500 ∧
    2 ≤ q.threshold ∧ q.threshold ≤ 5 ∧ q.homeReference ≤ 1048575)

/-- The configuration a `setcar` carries (R23). -/
def configOf (run : RunId) (q : SetCarBody) : CarConfig :=
  { run := run, offsets := q.offsets, lowerReach := q.lowerReach, upperReach := q.upperReach, maxSpeed := q.maxSpeed,
    creepSpeed := q.creepSpeed, deceleration := q.deceleration, reactionTime := q.reactionTime,
    skewLimit := q.skewLimit, reportInterval := q.reportInterval, warningLead := q.warningLead,
    stopWindow := q.stopWindow, threshold := q.threshold, homeReference := q.homeReference }

/-- The record after an accepted `setcar` with configured yes (R27). -/
def configure (cfg : CarConfig) (old : Carriage) : Carriage :=
  { cfg := cfg, state := .offline, mute := false, last := none, pose := some cfg.homePose, front := none, trip := none,
    tripCount := 0, level := if old.configured then old.level else 0,
    holds := if old.configured then (old.holds.remove .mute).remove .reversal else HoldSet.empty,
    current := none, stack := [], lastRetire := if old.configured then old.lastRetire else none }

/-- The rule of `setcar` with configured yes (R26, R27). -/
def setcarRule (_ : Origin) (q : SetCarBody) (r : Records) : Records × Answer :=
  lockFirst r <|
    match inTable 16 q.carriage, inTable 8 q.run with
    | some c, some run =>
      if q.configured ≠ 1 then (r, plain .badForm)
      else if !setCarInRange q then (r, plain .badForm)
      else if (r.fleet.cars[c]).state = .tripped then (r, plain .badState)
      else ({ r with fleet := r.fleet.modCar c (configure (configOf run q)) }, plain .done)
    | _, _ => (r, plain .badForm)

/-- SETCAR. -/
def execSetcar (p : Port) (s : State) : Host.Outcome State Fault Refusal :=
  .next (serve (.setcar p) p (judge decodeSetCar setcarRule p) s)

/-- The rule of `setcar` with configured no: the record takes its power-on values (R28). -/
def setcarNoRule (_ : Origin) (carriage : Nat) (r : Records) : Records × Answer :=
  lockFirst r <|
    match inTable 16 carriage with
    | some c => ({ r with fleet := r.fleet.modCar c (fun _ => Carriage.initial) }, plain .done)
    | none => (r, plain .badForm)

/-- SETCAR_CONFIGURED_NO. -/
def execSetcarConfiguredNo (p : Port) (s : State) : Host.Outcome State Fault Refusal :=
  .next (serve (.setcarConfiguredNo p) p (judge decodeSetCarNo setcarNoRule p) s)

/-! ## report (R30 to R42) -/

/-- The greatest of a list of integers, 0 when empty. -/
def greatest : List Int → Int
  | [] => 0
  | x :: xs => xs.foldl max x

/-- The least of a list of integers, 0 when empty. -/
def least : List Int → Int
  | [] => 0
  | x :: xs => xs.foldl min x

/-- Each truck's reading of the reference (R33). -/
def readings (cfg : CarConfig) (positions : List Nat) : List Int :=
  List.zipWith (fun (p : Nat) (o : Int) => (p : Int) - o) positions cfg.offsets

/-- Reference, skew and extent of a report (R33, R34). Integer division by 2 is the floor. -/
def poseOf (cfg : CarConfig) (positions : List Nat) : Pose :=
  let rs := readings cfg positions
  let reference := (greatest rs + least rs) / 2
  { reference := reference, skew := (greatest rs - least rs).toNat, lower := reference - cfg.lowerReach,
    upper := reference + cfg.upperReach }

/-- The speed clamped to −2,000 to +2,000 (R31). -/
def clampSpeed (speed : Int) : Int := max (-2000) (min 2000 speed)

/-- The state follows the speed; a TRIPPED carriage stays TRIPPED (R35). -/
def stateBySpeed (old : CarState) (v : Nat) : CarState :=
  match old with
  | .tripped => .tripped
  | _ => if standstill v then .standing else .moving

/-- Stages 1 to 4, and the braking front, which is written before any trip acts (R32, R46). -/
def recordReport (W : World) (F : Fleet) (c : CarId) (positions : List Nat) (speed : Int) : Fleet :=
  refront (F.modCar c (fun k => { k with
    last := some { positions := positions, speed := speed, tick := W.now }
    pose := some (poseOf k.cfg positions)
    state := stateBySpeed k.state speed.natAbs })) c

/-- The SKEW check fails (R36). -/
def skewFails (F : Fleet) (c : CarId) : Bool :=
  match (F.cars[c]).pose with
  | some p => decide ((F.cars[c]).cfg.skewLimit < p.skew)
  | none => false

/-- The OFF_RUN check fails (R37). -/
def offRunFails (W : World) (F : Fleet) (c : CarId) : Bool :=
  match (F.cars[c]).pose with
  | some p => decide (p.lower < 0 ∨ (runOf W F c).last < p.upper)
  | none => false

/-- The INTRUSION check fails (R38). -/
def intrusionFails (W : World) (F : Fleet) (c : CarId) : Bool :=
  let r := runOf W F c
  let others := othersClaims W F c
  (occupied W F c).any (fun u => conflictsAny r.clearance u others ||
    match r.bay u.bay with
    | some b => zoneHeldByOther W F c b
    | none => false)

/-- The track checks in their order, the first that fails (R32, stage 5). -/
def trackCheck (W : World) (F : Fleet) (c : CarId) : Option TripKind :=
  if skewFails F c then some .skew
  else if offRunFails W F c then some .offRun
  else if intrusionFails W F c then some .intrusion
  else none

/-- The bays from number `b` on with the marks of a report set on those in `nums` (R21). -/
def markBays (nums : List Nat) (stopped : Bool) (b : Nat) : List Bay → List Bay
  | [] => []
  | bay :: bays =>
    (if b ∈ nums then { bay with traversed := true, stoppedIn := bay.stoppedIn || stopped } else bay) ::
      markBays nums stopped (b + 1) bays

/-- The marks of the bays touched by the present extent (R21, R32 stage 6). -/
def setMarks (W : World) (F : Fleet) (c : CarId) (v : Nat) : World :=
  let i := (F.cars[c]).cfg.run
  let run := W.map.runs[i]
  let nums := (occupied W F c).map TrackUnit.bay
  { W with map := W.map.setRun i { run with bays := markBays nums (standstill v) 0 run.bays } }

/-- The end of mute: the flag is cleared and the cause handed over for removal (R42, R32 stage 10). -/
def endMute (W : World) (F : Fleet) (c : CarId) : Fleet :=
  if (F.cars[c]).mute then releaseHold W (F.modCar c (fun k => { k with mute := false })) c .mute else F

/-- An accepted report handled whole (R32). -/
def takeReport (W : World) (F : Fleet) (c : CarId) (positions : List Nat) (speed : Int) : World × Fleet :=
  let F4 := recordReport W F c positions speed
  let check := trackCheck W F4 c
  let F5 := match check with
    | some kind => trip W F4 c kind speed.natAbs false
    | none => F4
  let W6 := setMarks W F5 c speed.natAbs
  let F7 := rezone W6 F5 c
  let F9 := match check with
    | some _ => stopStage W6 F7 c speed.natAbs
    | none => supervise W6 F7 c speed
  (W6, endMute W6 (endRunOut W6 F9 c speed.natAbs) c)

/-- The body of the reply to an accepted report (R31). -/
def reportReply (k : Carriage) : List Byte :=
  be 1 k.state.code ++ be 1 (codeOr0 TripKind.code (k.trip.map TripRecord.kind)) ++ be 1 (bit k.holds.isEmpty) ++
    handleBytes k.current

/-- The request is accepted for carriage record `k` (R30). -/
def acceptsReport (k : Carriage) (q : ReportBody) : Bool :=
  k.configured && decide (q.positions.length = k.cfg.offsets.length) &&
    q.positions.all (fun p => decide (p ≤ 1048575))

/-- The rule of `report` (R30 to R32). -/
def reportRule (_ : Origin) (q : ReportBody) (r : Records) : Records × Answer :=
  match inTable 16 q.carriage with
  | none => (r, plain .badForm)
  | some c =>
    if acceptsReport r.fleet.cars[c] q then
      let speed := clampSpeed q.speed
      let out := takeReport r.world r.fleet c q.positions speed
      ({ r with world := out.1, fleet := out.2 },
        { status := if speed = q.speed then .done else .clamped, body := reportReply out.2.cars[c] })
    else (r, plain .badForm)

/-- REPORT. -/
def execReport (p : Port) (s : State) : Host.Outcome State Fault Refusal :=
  .next (serve (.report p) p (judge decodeReport reportRule p) s)

/-! ## The mute expiry (R41) -/

/-- The mute expiry of a carriage is due (R41). -/
def muteDue (W : World) (k : Carriage) : Bool :=
  (k.state == .standing || k.state == .moving || k.state == .tripped) && !k.mute &&
    match k.last with
    | some l => decide ((k.cfg.reportInterval : Int) ≤ sinceTick W.now l.tick)
    | none => false

/-- The mute expiry is taken (R41). -/
def becomeMute (F : Fleet) (c : CarId) : Fleet :=
  match (F.cars[c]).last with
  | some l =>
    ((F.modCar c (fun k => { k with mute := true })).addHold c .mute).raise
      { carriage := some c, handle := (F.cars[c]).current, value := .mute l.tick }
  | none => F

/-- MUTE_EXPIRY. -/
def execMuteExpiry (c : Fin 16) (s : State) : Host.Outcome State Fault Refusal :=
  .next (if s.resetLine || !muteDue s.records.world s.records.fleet.cars[c] then s
    else ({ s with records := { s.records with fleet := becomeMute s.records.fleet c } } : State).drive)

end Sys2Proof.Machine
end

