-- ==== Sys2Proof/Machine/WarrantRequests.lean ====
section
/-! DEFINITION. ask, extend, trim, release, confirm and the expiry of a GRANTED warrant (chapters 4, 5.6, 6.2). -/

namespace Sys2Proof.Machine

/-! ## ask (R77 to R81, R117 to R121) -/

/-- The lifetime taken (R81). -/
def lifetimeTaken (x : Nat) : Nat := if x = 0 then 60000 else min x 600000

/-- A target beyond the run's last position is clamped to it (R78). -/
def clampTarget (r : Run) (target : Nat) : Int := min (target : Int) r.last

/-- The direction of an ask: UP above the upper end, DOWN below the lower end, none within the extent (R78). -/
def askDir (p : Pose) (target : Int) : Option Dir :=
  if p.upper < target then some .up else if target < p.lower then some .down else none

/-- The ask preempts: class EMERGENCY over a current warrant of lower class (R79, R117). -/
def preempts (current : Option (SlotId × Warrant)) (k : Cls) : Bool :=
  match current with
  | some (_, w) => k == .emergency && w.cls != .emergency
  | none => false

/-- Checks 3 to 9 of an ask, the first that refuses (R77). -/
def askRefusal (F : Fleet) (o : Origin) (c : CarId) (k : Cls) : Option Status :=
  let car := F.cars[c]
  if car.state = .unconfigured ∨ car.state = .offline then some .offline
  else if k = .emergency ∧ o ≠ .assured then some .portDenied
  else if car.holds.heldBeyondTrip then some .held
  else if car.state = .tripped then some .tripped
  else if (F.currentOf c).isSome ∧ !preempts (F.currentOf c) k then some .hasWarrant
  else if F.freeSlot.isNone then some .tableFull
  else if preempts (F.currentOf c) k ∧ 3 ≤ car.stack.length then some .stackFull
  else none

/-- The walk of an ask (R69, R79, R118). -/
def askPlan (F : Fleet) (c : CarId) (k : Cls) (d : Dir) (target : Int) : WalkPlan :=
  { car := c, cls := k, dir := d, base := (F.cars[c]).lead d, target := target, oldSpan := none, ownSpan := none,
    met := none }

/-- The preempted warrant is set aside onto the stack (R119, step 1). -/
def suspend (F : Fleet) (c : CarId) (i : SlotId) : Fleet :=
  (F.modWarrant i (fun w => { w with state := .suspended, expiry := none })).modCar c
    (fun k => { k with current := none, stack := k.stack ++ [F.handleOf i] })

/-- Slot `i` issued to a new current warrant of the carriage (R64, R80 steps 1 to 5). -/
def issue (W : World) (F : Fleet) (i : SlotId) (c : CarId) (o : Origin) (k : Cls) (d : Dir) (target : Int)
    (lifetime : Nat) (res : WalkResult) : Fleet :=
  let w0 : Warrant := {
    carriage := c, origin := o, cls := k, dir := d, target := target, limit := res.limit, rear := rearFor W F c d,
    confirm := res.confirm, ceiling := 0, state := .granted, expiry := some (W.now + BitVec.ofNat 32 lifetime),
    lifetime := lifetime, retireOnStop := none, warned := false }
  let slot : Slot := { generation := (F.slots[i]).generation + 1,
                       warrant := some { w0 with ceiling := fullCeiling W F w0 } }
  let F1 : Fleet := { F with slots := F.slots.set i slot }
  resettle W (F1.modCar c (fun car => { car with current := some (F1.handleOf i) })) i

/-- A run-out begins when the last report moves against the new warrant's direction (R121). -/
def beginsRunOut (car : Carriage) (d : Dir) : Bool :=
  match speedDir car.lastSpeed with
  | some d' => d' != d
  | none => false

/-- A granted ask: with a current warrant, a preemption (R119); otherwise the plain grant (R80). -/
def grant (W : World) (F : Fleet) (i : SlotId) (c : CarId) (o : Origin) (k : Cls) (d : Dir) (target : Int)
    (lifetime : Nat) (res : WalkResult) : Fleet :=
  match F.currentOf c with
  | some (j, _) =>
    let F1 := issue W (suspend F c j) i c o k d target lifetime res
    refront (if beginsRunOut F1.cars[c] d then F1.addHold c .reversal else F1) c
  | none => refront (issue W F i c o k d target lifetime res) c

/-- The reply to a granting `ask` or `extend` (10.6). -/
def grantReply (F : Fleet) (i : SlotId) (res : WalkResult) (targetClamped : Bool) : Answer :=
  { status := res.status,
    body := match (F.slots[i]).warrant with
      | some w => handleBytes (some (F.handleOf i)) ++ be 3 w.limit.toNat ++ confirmBytes w.confirm ++ be 2 w.ceiling ++
          be 3 w.lifetime ++ be 1 (bit targetClamped) ++ be 1 (codeOr0 Blocker.code res.blocker)
      | none => [] }

/-- Checks 10 and 11 of an ask, and its grant (R77 to R80, R117, R118). -/
def askWalk (W : World) (F : Fleet) (o : Origin) (c : CarId) (p : Pose) (k : Cls) (target lifetime : Nat) :
    Fleet × Answer :=
  let r := runOf W F c
  let to' := clampTarget r target
  match askDir p to', F.freeSlot with
  | some d, some i =>
    let plan := askPlan F c k d to'
    let res := walk W F plan
    if res.gains plan then
      let G := grant W F i c o k d to' (lifetimeTaken lifetime) res
      (G, grantReply G i res (decide (r.last < (target : Int))))
    else (F, blockedBy res.blocker)
  | none, _ => (F, plain .noMove)
  | _, none => (F, plain .tableFull)

/-- The rule of `ask` (R77). -/
def askRule (o : Origin) (q : AskBody) (r : Records) : Records × Answer :=
  match inTable 16 q.carriage, clsOf q.cls with
  | some c, some k =>
    if 1048575 < q.target then (r, plain .badForm)
    else if !r.world.map.locked then (r, plain .unlocked)
    else
      match askRefusal r.fleet o c k, (r.fleet.cars[c]).pose with
      | some st, _ => (r, plain st)
      | none, some p =>
        let out := askWalk r.world r.fleet o c p k q.target q.lifetime
        ({ r with fleet := out.1 }, out.2)
      | none, none => (r, plain .offline)
  | _, _ => (r, plain .badForm)

/-- ASK. -/
def execAsk (p : Port) (s : State) : Host.Outcome State Fault Refusal :=
  .next (serve (.ask p) p (judge decodeAsk askRule p) s)

/-! ## Handles in requests (R76) -/

/-- The origin of a request owns a warrant: the Assured Port every one, an Open Port station its own (R76). -/
def owns (o : Origin) (w : Warrant) : Bool :=
  match o with
  | .assured => true
  | .openPort _ => w.origin == o

/-- The checks of R76 before a request's own: BAD_FORM, STALE, NOT_OWNER. -/
def withHandle (o : Origin) (slot generation point : Nat) (r : Records)
    (k : SlotId → Warrant → Records × Answer) : Records × Answer :=
  match inTable 48 slot with
  | none => (r, plain .badForm)
  | some i =>
    if 1048575 < point then (r, plain .badForm)
    else
      match r.fleet.live { slot := i, generation := BitVec.ofNat 8 generation } with
      | none => (r, plain .stale)
      | some w => if owns o w then k i w else (r, plain .notOwner)

/-! ## extend (R82, R83) -/

/-- The walk of an `extend` (R69, R72). -/
def extendPlan (W : World) (F : Fleet) (i : SlotId) (w : Warrant) (target : Int) : WalkPlan :=
  let r := runOf W F w.carriage
  let e := entryOf r (F.handleOf i) w
  { car := w.carriage, cls := w.cls, dir := w.dir, base := w.limit, target := target, oldSpan := none,
    ownSpan := some (e.firstUnit, e.lastUnit), met := bayOfConfirm r w.dir w.confirm }

/-- The warrant after an `extend` that grants (R83). -/
def extended (W : World) (F : Fleet) (w : Warrant) (target : Int) (res : WalkResult) : Warrant :=
  { w with
    target := target
    limit := res.limit
    confirm := match w.confirm with
      | some p => some p
      | none => res.confirm
    ceiling := leastCeiling W F w.carriage w.cls w.ceiling res.passed
    expiry := if w.state = .granted then some (W.now + BitVec.ofNat 32 w.lifetime) else w.expiry }

/-- The own checks and the effect of `extend` (R82, R83). -/
def extendWarrant (W : World) (F : Fleet) (i : SlotId) (w : Warrant) (target : Nat) : Fleet × Answer :=
  let r := runOf W F w.carriage
  let to' := clampTarget r target
  if w.state = .suspended ∨ w.retireOnStop.isSome then (F, plain .badState)
  else if !(F.cars[w.carriage]).holds.isEmpty then (F, plain .held)
  else if !beyond w.dir to' w.limit then (F, plain .badTarget)
  else
    let plan := extendPlan W F i w to'
    let res := walk W F plan
    if res.gains plan then
      let G := resettle W (F.modWarrant i (fun _ => extended W F w to' res)) i
      (G, grantReply G i res (decide (r.last < (target : Int))))
    else (F, blockedBy res.blocker)

/-- The rule of `extend`. -/
def extendRule (o : Origin) (q : PointBody) (r : Records) : Records × Answer :=
  withHandle o q.slot q.generation q.point r fun i w =>
    let out := extendWarrant r.world r.fleet i w q.point
    ({ r with fleet := out.1 }, out.2)

/-- EXTEND. -/
def execExtend (p : Port) (s : State) : Host.Outcome State Fault Refusal :=
  .next (serve (.extend p) p (judge decodePoint extendRule p) s)

/-! ## trim (R84, R85) -/

/-- The floor of a trim (R84): the rear of a SUSPENDED warrant, else the floor of a cut. -/
def trimFloor (W : World) (F : Fleet) (w : Warrant) : Int :=
  if w.state = .suspended then w.rear
  else cutFloor W F w

/-- The limit a trim takes: the new limit, or the floor when it lies behind it, and never beyond the current
limit (R84). -/
def trimTaken (W : World) (F : Fleet) (w : Warrant) (new : Int) : Int :=
  let floor := trimFloor W F w
  if beyond w.dir floor new then (if beyond w.dir floor w.limit then w.limit else floor) else new

/-- The reply to a trim (10.6). -/
def trimReply (F : Fleet) (i : SlotId) (st : Status) : Answer :=
  { status := st,
    body := match (F.slots[i]).warrant with
      | some w => be 3 w.limit.toNat ++ confirmBytes w.confirm ++ be 2 w.ceiling
      | none => [] }

/-- The own check and the effect of `trim` (R84, R85). -/
def trimWarrant (W : World) (F : Fleet) (i : SlotId) (w : Warrant) (new : Int) : Fleet × Answer :=
  if !beyond w.dir w.limit new then (F, plain .badTarget)
  else
    let taken := trimTaken W F w new
    let G := if taken = w.limit then F else shorten W F i taken
    (G, trimReply G i (if taken = new then .done else .clamped))

/-- The rule of `trim`. -/
def trimRule (o : Origin) (q : PointBody) (r : Records) : Records × Answer :=
  withHandle o q.slot q.generation q.point r fun i w =>
    let out := trimWarrant r.world r.fleet i w q.point
    ({ r with fleet := out.1 }, out.2)

/-- TRIM. -/
def execTrim (p : Port) (s : State) : Host.Outcome State Fault Refusal :=
  .next (serve (.trim p) p (judge decodePoint trimRule p) s)

/-! ## release (R86) -/

/-- The warrant of a carriage whose last report was above standstill is cut and marked when it is ACTIVE, or GRANTED with
retire-on-stop already on it (R86, R101, R113, R162); every other retires. A marked GRANTED one of a mute carriage, which
reports no more, retires at once as R100 says. That these rules, which differ, are told apart by the mute flag, and that a
marked SUSPENDED one retires at once, is the model's choice (notes/assumptions/41.md). -/
def stopsFirst (F : Fleet) (w : Warrant) : Bool :=
  let k := F.cars[w.carriage]
  !standstill k.lastV && (w.state == .active || (w.state == .granted && w.retireOnStop.isSome && !k.mute))

/-- The effect of `release` (R86). A cut keeps the first reason (R90). At once the reason is RELEASED, a mark the warrant
carries or not (notes/assumptions/41.md). -/
def releaseWarrant (W : World) (F : Fleet) (i : SlotId) (w : Warrant) : Fleet × Answer :=
  if stopsFirst F w then (markWarrant W F i .released, { status := .done, body := be 1 2 })
  else (retire W F i .released, { status := .done, body := be 1 1 })

/-- The rule of `release`. -/
def releaseRule (o : Origin) (q : HandleBody) (r : Records) : Records × Answer :=
  withHandle o q.slot q.generation 0 r fun i w =>
    let out := releaseWarrant r.world r.fleet i w
    ({ r with fleet := out.1 }, out.2)

/-- RELEASE. -/
def execRelease (p : Port) (s : State) : Host.Outcome State Fault Refusal :=
  .next (serve (.release p) p (judge decodeHandle releaseRule p) s)

/-! ## confirm (R87) -/

/-- The rule of `confirm` (R87). -/
def confirmRule (o : Origin) (q : HandleBody) (r : Records) : Records × Answer :=
  withHandle o q.slot q.generation 0 r fun i w =>
    if w.confirm.isNone then (r, plain .nothingPending)
    else ({ r with fleet := r.fleet.modWarrant i (fun w' => { w' with confirm := none }) },
      { status := .done, body := be 3 w.limit.toNat })

/-- CONFIRM. -/
def execConfirm (p : Port) (s : State) : Host.Outcome State Fault Refusal :=
  .next (serve (.confirm p) p (judge decodeHandle confirmRule p) s)

/-! ## The expiry of a GRANTED warrant (R102) -/

/-- The tick at which the live GRANTED warrant of slot `i` expires, when that has come (R102). -/
def expiryDue (W : World) (F : Fleet) (i : SlotId) : Option (Warrant × Tick) :=
  match (F.slots[i]).warrant with
  | some w =>
    match w.expiry with
    | some t => if w.state = .granted ∧ 0 ≤ sinceTick W.now t then some (w, t) else none
    | none => none
  | none => none

/-- The expiry of slot `i` is taken (R102). -/
def expire (W : World) (F : Fleet) (i : SlotId) : Fleet :=
  match expiryDue W F i with
  | some (w, t) =>
    retire W (F.raise { carriage := some w.carriage, handle := some (F.handleOf i), value := .expired t }) i .expired
  | none => F

/-- WARRANT_EXPIRY. -/
def execWarrantExpiry (slot : Fin 48) (s : State) : Host.Outcome State Fault Refusal :=
  .next (if s.resetLine || (expiryDue s.records.world s.records.fleet slot).isNone then s
    else ({ s with records := { s.records with fleet := expire s.records.world s.records.fleet slot } } : State).drive)

end Sys2Proof.Machine
end

