-- ==== Sys2Proof/Machine/HoldRequests.lean ====
section
/-! DEFINITION. hold, unhold, clear and restore (chapter 8). -/

namespace Sys2Proof.Machine

/-! ## hold (R151) -/

/-- The hold cause of a port (R151, R152). -/
def portHold (o : Origin) : Cause :=
  match o with
  | .openPort _ => .openHold
  | .assured => .assuredHold

/-- The rule of `hold` (R151). Carriage 0xFF is ALL (10.5). -/
def holdRule (o : Origin) (carriage : Nat) (r : Records) : Records × Answer :=
  match optional 16 carriage with
  | none => (r, plain .badForm)
  | some none => ({ r with fleet := r.fleet.addHoldAll (portHold o) }, plain .done)
  | some (some c) =>
    if (r.fleet.cars[c]).configured then ({ r with fleet := r.fleet.addHold c (portHold o) }, plain .done)
    else (r, plain .offline)

/-- HOLD. -/
def execHold (p : Port) (s : State) : Host.Outcome State Fault Refusal :=
  .next (serve (.hold p) p (judge decodeByte holdRule p) s)

/-! ## unhold (R152) -/

/-- The cause a cause field names, 0 HOLD or 1 ESTOP, for the port of the request (R152, 10.5). -/
def unholdCause (o : Origin) (x : Nat) : Option Cause :=
  match x with
  | 0 => some (portHold o)
  | 1 => some .estop
  | _ => none

/-- The cause is removed from every configured carriage, in ascending order (R152). -/
def releaseHoldAll (W : World) (F : Fleet) (cause : Cause) : Fleet :=
  (List.finRange 16).foldl (fun G c => if (G.cars[c]).configured then releaseHold W G c cause else G) F

/-- The single carriage named is UNCONFIGURED (R152). -/
def namesUnconfigured (F : Fleet) (target : Option CarId) : Bool :=
  match target with
  | some c => !(F.cars[c]).configured
  | none => false

/-- The cause is removed from the carriage named, or from every configured one (R152). -/
def unholdTarget (W : World) (F : Fleet) (target : Option CarId) (cause : Cause) : Fleet :=
  match target with
  | some c => releaseHold W F c cause
  | none => releaseHoldAll W F cause

/-- The rule of `unhold` (R152). -/
def unholdRule (o : Origin) (q : PairBody) (r : Records) : Records × Answer :=
  match optional 16 q.fst, unholdCause o q.snd with
  | some target, some cause =>
    if cause = .estop ∧ o ≠ .assured then (r, plain .portDenied)
    else if namesUnconfigured r.fleet target then (r, plain .offline)
    else if cause = .estop ∧ r.world.estopLine then (r, plain .stillPresent)
    else ({ r with fleet := unholdTarget r.world r.fleet target cause }, plain .done)
  | _, _ => (r, plain .badForm)

/-- UNHOLD. -/
def execUnhold (p : Port) (s : State) : Host.Outcome State Fault Refusal :=
  .next (serve (.unhold p) p (judge decodePair unholdRule p) s)

/-! ## clear (R159, R160) -/

/-- Trips of this kind are cleared on the Assured Port alone (R159, check 4). -/
def TripKind.assuredClear : TripKind → Bool
  | .skew => true
  | .offRun => true
  | .intrusion => true
  | .overrun => true
  | .condition => true
  | .service => true
  | .brakeCurve => false
  | .overspeed => false
  | .reverse => false
  | .unwarranted => false

/-- The last report still fails OVERRUN or BRAKE_CURVE against the current warrant (R160). -/
def currentStillFails (F : Fleet) (c : CarId) (kind : TripKind) : Bool :=
  match F.currentOf c with
  | some (_, w) =>
    let k := F.cars[c]
    let lead := k.lead w.dir
    match kind with
    | .overrun => beyond w.dir lead w.effectiveLimit
    | _ => beyond w.dir (k.front.getD lead) w.effectiveLimit
  | none => false

/-- The bay of a touched unit fails the predicate. -/
def touchesBad (W : World) (F : Fleet) (c : CarId) (bad : Bay → Bool) : Bool :=
  (occupied W F c).any (fun u => match (runOf W F c).bay u.bay with
    | some b => bad b
    | none => false)

/-- The last report still fails the check of the recorded kind (R160). -/
def stillFails (W : World) (F : Fleet) (c : CarId) (kind : TripKind) : Bool :=
  match kind with
  | .skew => skewFails F c
  | .offRun => offRunFails W F c
  | .intrusion => intrusionFails W F c
  | .overrun => currentStillFails F c .overrun
  | .brakeCurve => currentStillFails F c .brakeCurve
  | .overspeed => false
  | .reverse => false
  | .unwarranted => false
  | .condition => touchesBad W F c (conditionFails W)
  | .service => touchesBad W F c (fun b => !b.inService)

/-- Checks 2 to 6 of a `clear`, the first that refuses (R159). -/
def clearRefusal (W : World) (F : Fleet) (o : Origin) (c : CarId) : Option Status :=
  let k := F.cars[c]
  if !k.configured then some .offline
  else
    match k.state, k.trip with
    | .tripped, some t =>
      if o ≠ .assured ∧ t.kind.assuredClear then some .portDenied
      else if !standstill k.lastV then some .notStopped
      else if stillFails W F c t.kind then some .stillPresent
      else none
    | _, _ => some .nothingPending

/-- An accepted `clear` (R160). -/
def clearTrip (W : World) (F : Fleet) (c : CarId) : Fleet :=
  releaseHold W (F.modCar c (fun k => { k with state := .standing, trip := none })) c .trip

/-- The rule of `clear` (R159). -/
def clearRule (o : Origin) (carriage : Nat) (r : Records) : Records × Answer :=
  match inTable 16 carriage with
  | none => (r, plain .badForm)
  | some c =>
    match clearRefusal r.world r.fleet o c with
    | some st => (r, plain st)
    | none => ({ r with fleet := clearTrip r.world r.fleet c }, plain .done)

/-- CLEAR. -/
def execClear (p : Port) (s : State) : Host.Outcome State Fault Refusal :=
  .next (serve (.clear p) p (judge decodeByte clearRule p) s)

/-! ## restore (R161) -/

/-- The rule of `restore` (R161). -/
def restoreRule (o : Origin) (carriage : Nat) (r : Records) : Records × Answer :=
  assuredOnly o r <|
    match inTable 16 carriage with
    | none => (r, plain .badForm)
    | some c =>
      if (r.fleet.cars[c]).configured then
        ({ r with fleet := r.fleet.modCar c (fun k => { k with level := 0, tripCount := 0 }) }, plain .done)
      else (r, plain .offline)

/-- RESTORE. -/
def execRestore (p : Port) (s : State) : Host.Outcome State Fault Refusal :=
  .next (serve (.restore p) p (judge decodeByte restoreRule p) s)

end Sys2Proof.Machine
end

