-- ==== Sys2Proof/Machine/ConditionRequests.lean ====
section
/-! DEFINITION. wind, setwind, cond, maint and endmaint (chapter 7). -/

namespace Sys2Proof.Machine

/-! ## wind (R135, R136) -/

/-- A level of rank `rank` and threshold `t` is reached or held by gust `g` from state `st`. The difference
`t - 20` is 0 where the threshold lies below 20 (R136). -/
def levelStands (st : WindState) (rank t g : Nat) : Bool :=
  decide (t ≤ g) || (decide (rank ≤ st.rank) && decide (t - 20 ≤ g))

/-- The new state of a gust: the highest level reached or held, else CALM (R136). -/
def newWindState (w : Wind) (g : Nat) : WindState :=
  if levelStands w.state 3 w.stormThreshold g then .storm
  else if levelStands w.state 2 w.galeThreshold g then .gale
  else if levelStands w.state 1 w.breezeThreshold g then .breeze
  else .calm

/-- The wind record after a report (R135, steps 1 to 3; R138). -/
def Wind.report (w : Wind) (mean gust : Nat) (now : Tick) : Wind :=
  { w with mean := some mean, gust := some gust, lastTick := some now,
           state := if w.stormLine then .storm else newWindState w gust }

/-- The records with a changed wind record, and the change of state acted on (R140). -/
def Records.withWind (r : Records) (w : Wind) : Records :=
  let W : World := { r.world with wind := w }
  { r with world := W, fleet := windChanged W r.world.wind.state r.fleet }

/-- The rule of `wind` (R135). -/
def windRule (_ : Origin) (q : WindBody) (r : Records) : Records × Answer :=
  let w := r.world.wind.report (min q.mean 999) (min q.gust 999) r.world.now
  (r.withWind w,
    { status := if q.mean ≤ 999 ∧ q.gust ≤ 999 then .done else .clamped, body := be 1 w.state.code })

/-- WIND. -/
def execWind (p : Port) (s : State) : Host.Outcome State Fault Refusal :=
  .next (serve (.wind p) p (judge decodeWind windRule p) s)

/-! ## setwind (R137) -/

/-- The settings lie in their ranges (R137). -/
def setWindInRange (q : SetWindBody) : Bool :=
  decide (q.storm ≤ 999 ∧ q.breeze < q.gale ∧ q.gale < q.storm ∧ 1 ≤ q.galeCap ∧ q.galeCap ≤ q.breezeCap ∧
    q.breezeCap ≤ 1000 ∧ 2000 ≤ q.timeout ∧ q.timeout ≤ 30000)

/-- The wind record with the six settings written (R137). -/
def Wind.settings (w : Wind) (q : SetWindBody) : Wind :=
  { w with breezeThreshold := q.breeze, galeThreshold := q.gale, stormThreshold := q.storm, breezeCap := q.breezeCap,
           galeCap := q.galeCap, timeout := q.timeout }

/-- The rule of `setwind` (R137). -/
def setwindRule (o : Origin) (q : SetWindBody) (r : Records) : Records × Answer :=
  assuredOnly o r <|
    if setWindInRange q then
      ({ r with world := { r.world with wind := r.world.wind.settings q } }, plain .done)
    else (r, plain .badForm)

/-- SETWIND. -/
def execSetwind (p : Port) (s : State) : Host.Outcome State Fault Refusal :=
  .next (serve (.setwind p) p (judge decodeSetWind setwindRule p) s)

/-! ## cond (R132, R133) -/

/-- A condition takes a value; a change raises CONDITION, and a change to FALSE demands a cut to unit (R133). -/
def changeCondition (n : CondId) (v : Bool) (r : Records) : Records :=
  if r.world.conditions[n] = v then r
  else
    let W : World := { r.world with conditions := r.world.conditions.set n v }
    let F := r.fleet.raise { carriage := none, handle := none, value := .condition n v }
    { r with world := W, fleet := if v then F else cutToUnit W (conditionDemand n) F }

/-- The rule of `cond` (R132). That its value is coded 1 TRUE and 0 FALSE is the model's reading
(notes/assumptions/44.md). -/
def condRule (o : Origin) (q : PairBody) (r : Records) : Records × Answer :=
  assuredOnly o r <|
    match inTable 16 q.fst, yesNo q.snd with
    | some n, some v => if 8 ≤ n.val then (changeCondition n v r, plain .done) else (r, plain .badForm)
    | _, _ => (r, plain .badForm)

/-- COND. -/
def execCond (p : Port) (s : State) : Host.Outcome State Fault Refusal :=
  .next (serve (.cond p) p (judge decodePair condRule p) s)

/-! ## maint and endmaint (R144 to R146) -/

/-- Run `i` is in the set: run r is named by the value 2^r (10.5). -/
def inRunSet (set : Nat) (i : RunId) : Bool := Nat.testBit set i.val

/-- A run of the set has a live warrant of one of the classes (R145, R146). -/
def runSetBusy (F : Fleet) (set : Nat) (blocks : Cls → Bool) : Bool :=
  (List.finRange 48).any (fun i => match (F.slots[i]).warrant with
    | some w => inRunSet set (F.cars[w.carriage]).cfg.run && blocks w.cls
    | none => false)

/-- The windows of the set take the value; the others are kept. -/
def putWindows (windows : Vector Bool 8) (set : Nat) (v : Bool) : Vector Bool 8 :=
  Vector.ofFn (fun i : RunId => if inRunSet set i then v else windows[i])

/-- AUTO and OPERATOR, the classes an opened window turns against (R145). -/
def Cls.blocksMaint : Cls → Bool
  | .auto => true
  | .operator => true
  | .maintenance => false
  | .emergency => false

/-- MAINTENANCE, the class a closed window turns against (R146). -/
def Cls.blocksEndmaint (k : Cls) : Bool := k == .maintenance

/-- The rule of `maint` (R145). -/
def maintRule (o : Origin) (set : Nat) (r : Records) : Records × Answer :=
  assuredOnly o r <|
    if !r.world.keyPresent then (r, plain .keyAbsent)
    else if runSetBusy r.fleet set Cls.blocksMaint then (r, plain .busy)
    else ({ r with world := { r.world with windows := putWindows r.world.windows set true } }, plain .done)

/-- MAINT. -/
def execMaint (p : Port) (s : State) : Host.Outcome State Fault Refusal :=
  .next (serve (.maint p) p (judge decodeByte maintRule p) s)

/-- The rule of `endmaint` (R146). -/
def endmaintRule (o : Origin) (set : Nat) (r : Records) : Records × Answer :=
  assuredOnly o r <|
    if runSetBusy r.fleet set Cls.blocksEndmaint then (r, plain .busy)
    else ({ r with world := { r.world with windows := putWindows r.world.windows set false } }, plain .done)

/-- ENDMAINT. -/
def execEndmaint (p : Port) (s : State) : Host.Outcome State Fault Refusal :=
  .next (serve (.endmaint p) p (judge decodeByte endmaintRule p) s)

end Sys2Proof.Machine
end

