-- ==== Sys2Proof/Machine/NoticeRequests.lean ====
section
/-! DEFINITION. notices, mask, peek and restart (chapters 9, 10.8 and 10.9). -/

namespace Sys2Proof.Machine

/-! ## notices and mask (R168, R169) -/

/-- The kinds visible, in ascending order (R168). -/
def visibleKinds (F : Fleet) : List (Fin 15) := (List.finRange 15).filter (fun k => (F.notices[k]).visible)

/-- A visible kind's pending flag and count cleared, its detail and mask kept (R168). -/
def Notice.collect (n : Notice) : Notice := if n.visible then { n with pending := false, count := 0 } else n

/-- The rule of `notices` (R168). -/
def noticesRule (_ : Origin) (_ : Unit) (r : Records) : Records × Answer :=
  ({ r with fleet := { r.fleet with notices := r.fleet.notices.map Notice.collect } },
    { status := .done, body := (visibleKinds r.fleet).flatMap (fun k => noticeEntry k r.fleet.notices[k]) })

/-- NOTICES. -/
def execNotices (p : Port) (s : State) : Host.Outcome State Fault Refusal :=
  .next (serve (.notices p) p (judge decodeEmpty noticesRule p) s)

/-- Every kind's mask written with its value (R169). -/
def putMasks (notices : Vector Notice 15) (masks : List Bool) : Vector Notice 15 :=
  Vector.ofFn (fun k : Fin 15 => { notices[k] with mask := masks.getD k.val false })

/-- The rule of `mask` (R169). -/
def maskRule (o : Origin) (masks : List Bool) (r : Records) : Records × Answer :=
  assuredOnly o r ({ r with fleet := { r.fleet with notices := putMasks r.fleet.notices masks } }, plain .done)

/-- MASK. -/
def execMask (p : Port) (s : State) : Host.Outcome State Fault Refusal :=
  .next (serve (.mask p) p (judge decodeMask maskRule p) s)

/-! ## peek (R177)

A reply is built of bytes of which some have no stated value (the number of a field that is absent): those are
`none` here, and each is filled with a free value (notes/assumptions/2.md). -/

/-- Bytes of a reply, none where the manual states no value. -/
abbrev PeekBytes := List (Option Byte)

/-- Bytes with stated values. -/
def stated (bytes : List Byte) : PeekBytes := bytes.map some

/-- `n` bytes without a stated value. -/
def unstatedBytes (n : Nat) : PeekBytes := List.replicate n none

/-- A field of `n` bytes that may be absent with no value stated for its absence. -/
def statedOr {α : Type} (n : Nat) (bytes : α → List Byte) (x : Option α) : PeekBytes :=
  match x with
  | some a => stated (bytes a)
  | none => unstatedBytes n

/-- The reply's bytes, each unstated one a fresh free value counted from `k`. -/
def fillUnstated (k : Nat) : PeekBytes → List Byte
  | [] => []
  | some b :: rest => b :: fillUnstated k rest
  | none :: rest => Config.freeByte k :: fillUnstated (k + 1) rest

/-- How many bytes without a stated value a reply holds. -/
def unstatedCount (bytes : PeekBytes) : Nat := (bytes.filter Option.isNone).length

/-- An access set in class order, or 0 for each entry of an override that is none (10.7). -/
def accessBytes : Option AccessSet → List Byte
  | some a => be 1 a.auto.code ++ be 1 a.operator.code ++ be 1 a.maintenance.code ++ be 1 a.emergency.code
  | none => [0, 0, 0, 0]

/-- An optional number, 0xFF for none. -/
def optionalByte {n : Nat} (x : Option (Fin n)) : List Byte :=
  match x with
  | some i => be 1 i.val
  | none => [0xFF]

/-- Bytes 4 and 5 of a WARRANT reply: origin port and station. -/
def originBytes : Origin → PeekBytes
  | .openPort st => stated (be 1 (portCode .openPort) ++ [st])
  | .assured => stated (be 1 (portCode .assured)) ++ unstatedBytes 1

/-- The WARRANT reply, 32 bytes. -/
def peekWarrant (F : Fleet) (i : SlotId) : PeekBytes :=
  match (F.slots[i]).warrant with
  | none => stated (be 1 i.val ++ [(F.slots[i]).generation] ++ List.replicate 30 0)
  | some w =>
    stated (be 1 i.val ++ [(F.slots[i]).generation] ++ be 1 w.state.code ++ be 1 w.carriage.val) ++
      originBytes w.origin ++
      stated (be 1 w.cls.code ++ be 1 w.dir.code ++ be 3 w.target.toNat ++ be 3 w.limit.toNat ++ be 3 w.rear.toNat ++
        confirmBytes w.confirm ++ be 2 w.ceiling ++ be 1 (bit w.expiry.isSome)) ++
      statedOr 4 (fun t => be 4 t.toNat) w.expiry ++
      stated (be 3 w.lifetime ++ be 1 (codeOr0 Reason.code w.retireOnStop) ++ be 1 (bit w.warned))

/-- Bytes 0 to 42 of a CARRIAGE reply: the configuration part. -/
def peekConfig (c : CarId) (configured : Bool) (g : CarConfig) : List Byte :=
  be 1 c.val ++ be 1 (bit configured) ++ be 1 g.run.val ++ be 1 g.offsets.length ++
    padTo 16 (g.offsets.flatMap (beSigned 2)) ++ be 2 g.lowerReach ++ be 2 g.upperReach ++ be 2 g.maxSpeed ++
    be 1 g.creepSpeed ++ be 2 g.deceleration ++ be 2 g.reactionTime ++ be 2 g.skewLimit ++ be 2 g.reportInterval ++
    be 2 g.warningLead ++ be 2 g.stopWindow ++ be 1 g.threshold ++ beSigned 3 g.homeReference

/-- Bytes 45 to 75: the last report. -/
def peekLast (last : Option LastReport) : PeekBytes :=
  stated (be 1 (bit last.isSome) ++ padTo 24 (match last with
    | some l => l.positions.flatMap (be 3)
    | none => [])) ++
  statedOr 6 (fun l : LastReport => beSigned 2 l.speed ++ be 4 l.tick.toNat) last

/-- Bytes 76 to 90: reference, skew and extent. -/
def peekPose (p : Pose) : List Byte := beSigned 4 p.reference ++ be 3 p.skew ++ beSigned 4 p.lower ++ beSigned 4 p.upper

/-- Bytes 91 to 96: the present extent, 0xFFFFFF each when empty. -/
def peekPresent (x : Option (Int × Int)) : List Byte :=
  match x with
  | some (lo, hi) => be 3 lo.toNat ++ be 3 hi.toNat
  | none => List.replicate 6 0xFF

/-- Bytes 97 to 100: the braking front, 0x80000000 for none. -/
def peekFront (x : Option Int) : List Byte :=
  match x with
  | some f => beSigned 4 f
  | none => [0x80, 0, 0, 0]

/-- Bytes 101 to 106: the trip record, kind 0 for none. -/
def peekTrip (t : Option TripRecord) : PeekBytes :=
  stated (be 1 (codeOr0 TripKind.code (t.map TripRecord.kind))) ++
    statedOr 5 (fun t : TripRecord => be 4 t.tick.toNat ++ be 1 t.further) t

/-- Bytes 112 to 118: stack depth and three handles, oldest first, those beyond the depth none. -/
def peekStack (stack : List Handle) : List Byte :=
  be 1 stack.length ++ handleBytes stack[0]? ++ handleBytes stack[1]? ++ handleBytes stack[2]?

/-- The CARRIAGE reply, 122 bytes. -/
def peekCarriage (W : World) (F : Fleet) (c : CarId) : PeekBytes :=
  let k := F.cars[c]
  stated (peekConfig c k.configured k.cfg ++ be 1 k.state.code ++ be 1 (bit k.mute)) ++ peekLast k.last ++
    statedOr 15 peekPose k.pose ++ stated (peekPresent (presentExtent W F c) ++ peekFront k.front) ++
    peekTrip k.trip ++
    stated (be 1 k.tripCount ++ be 1 k.level ++ be 1 k.holds.code ++ handleBytes k.current ++ peekStack k.stack ++
      be 1 (codeOr0 Reason.code (k.lastRetire.map Prod.fst)) ++ handleBytes (k.lastRetire.map Prod.snd))

/-- One entry of a RUN reply. -/
def entryBytes (e : Entry) : List Byte :=
  be 1 e.carriage.val ++ handleBytes (some e.handle) ++ be 2 e.firstUnit ++ be 2 e.lastUnit

/-- An exposure (10.7). -/
def exposureCode (exposed : Bool) : Nat := if exposed then 1 else 2

/-- The RUN reply. -/
def peekRun (W : World) (F : Fleet) (i : RunId) (first : Nat) : PeekBytes :=
  let run := W.map.runs[i]
  let entries := F.occupancy[i]
  stated (be 1 (bit run.defined) ++ be 1 run.bays.length ++ be 3 run.length ++ be 1 run.closeDir.code ++
    be 1 (exposureCode run.exposed) ++ be 2 run.clearance ++ be 1 entries.length ++ be 1 first ++
    ((entries.drop first).take 32).flatMap entryBytes)

/-- The kind, length and cell count of a BAY reply; a PLAIN bay has no cell count. -/
def shapeBytes : BayShape → PeekBytes
  | .plain l => stated (be 1 1 ++ be 2 l) ++ unstatedBytes 1
  | .celled l n => stated (be 1 2 ++ be 2 l ++ be 1 n)

/-- The BAY reply, 21 bytes, every one 0 at or beyond the bay count. -/
def peekBay (W : World) (i : RunId) (b : Nat) : PeekBytes :=
  let run := W.map.runs[i]
  match run.bay b with
  | none => stated (List.replicate 21 0)
  | some bay =>
    stated (be 1 i.val ++ be 1 b) ++ shapeBytes bay.shape ++
      stated (be 2 bay.ceiling ++ accessBytes (some bay.access) ++ be 1 (bit bay.inService) ++ be 1 (bit bay.entryCheck) ++
        optionalByte bay.condition ++ optionalByte bay.zone ++ be 3 (run.bayStart b) ++ be 1 (bit bay.traversed) ++
        be 1 (bit bay.stoppedIn))

/-- The ZONE reply, 11 bytes. -/
def peekZone (W : World) (F : Fleet) (z : ZoneId) : PeekBytes :=
  let zone := W.map.zones[z]
  stated (be 1 z.val ++ be 1 (bit zone.defined) ++ optionalByte zone.parent ++ be 1 (bit zone.access.isSome) ++
    accessBytes zone.access ++ (match zone.ceiling with
      | some x => be 2 x
      | none => [0xFF, 0xFF]) ++ optionalByte F.holders[z])

/-- The WIND reply, 23 bytes; mean and gust are 0xFFFF for none. -/
def peekWind (w : Wind) : PeekBytes :=
  stated (be 1 w.state.code ++ gustBytes w.mean ++ gustBytes w.gust ++ be 1 (bit w.lastTick.isSome)) ++
    statedOr 4 (fun t => be 4 t.toNat) w.lastTick ++
    stated (be 2 w.breezeThreshold ++ be 2 w.galeThreshold ++ be 2 w.stormThreshold ++ be 2 w.breezeCap ++
      be 2 w.galeCap ++ be 2 w.timeout ++ be 1 (bit w.stormLine))

/-- The CONDITIONS reply, 16 bytes. -/
def peekConditions (W : World) : PeekBytes :=
  stated ((List.finRange 16).flatMap (fun n => be 1 (bit W.conditions[n])))

/-- The record a `peek` names, none when the request is refused BAD_FORM (R177). -/
def peekRecord (r : Records) (q : TripleBody) : Option PeekBytes :=
  match q.fst with
  | 1 => (inTable 48 q.snd).map (peekWarrant r.fleet)
  | 2 => (inTable 16 q.snd).map (peekCarriage r.world r.fleet)
  | 3 => (inTable 8 q.snd).map (fun i => peekRun r.world r.fleet i q.thd)
  | 4 => if 47 < q.thd then none else (inTable 8 q.snd).map (fun i => peekBay r.world i q.thd)
  | 5 => (inTable 32 q.snd).map (peekZone r.world r.fleet)
  | 6 => some (peekWind r.world.wind)
  | 7 => some (peekConditions r.world)
  | _ => none

/-- The rule of `peek` (R177). The count of free values alone advances. -/
def peekRule (_ : Origin) (q : TripleBody) (r : Records) : Records × Answer :=
  match peekRecord r q with
  | some bytes =>
    ({ r with unstated := r.unstated + unstatedCount bytes },
      { status := .done, body := fillUnstated r.unstated bytes })
  | none => (r, plain .badForm)

/-- PEEK. -/
def execPeek (p : Port) (s : State) : Host.Outcome State Fault Refusal :=
  .next (serve (.peek p) p (judge decodeTriple peekRule p) s)

/-! ## restart (R178) -/

/-- Every live warrant retires RESTART in ascending slot order, with no resumption (R93). -/
def retireAll (W : World) (F : Fleet) : Fleet :=
  (List.finRange 48).foldl (fun G i => retireQuietly W G i .restart) F

/-- The zone holders after a `restart` (R10): with the map LOCKED a zone stays with its holder of before while that
carriage's present extent reaches it, else the lowest-numbered carriage whose present extent does. -/
def restartHolders (W : World) (before : Vector (Option CarId) 32) (F : Fleet) : Fleet :=
  if W.map.locked then
    { F with holders := Vector.ofFn (fun z : ZoneId =>
        match before[z] with
        | some c => if z ∈ extentZones W F c then some c else lowestReaching W F z
        | none => lowestReaching W F z) }
  else F.clearHolders

/-- ASSURED_HOLD is added to every configured carriage and REVERSAL removed from every hold set (R163). -/
def restartHolds (F : Fleet) : Fleet :=
  let G := F.addHoldAll .assuredHold
  { G with cars := G.cars.map (fun k => { k with holds := k.holds.remove .reversal }) }

/-- Pending flag, count and detail of every kind cleared, the masks kept (R171). -/
def clearNotices (F : Fleet) : Fleet :=
  { F with notices := F.notices.map (fun n => { n with pending := false, count := 0, detail := none }) }

/-- Steps 2 to 4 of a `restart` (R178). -/
def restartFleet (W : World) (F : Fleet) : Fleet :=
  clearNotices (restartHolds (restartHolders W F.holders (retireAll W F)))

/-- The rule of `restart` (R178). -/
def restartRule (o : Origin) (_ : Unit) (r : Records) : Records × Answer :=
  assuredOnly o r ({ r with fleet := restartFleet r.world r.fleet }, plain .done)

/-- The oldest frame of the Assured Port is a `restart` that takes effect now. -/
def restartDue (p : Port) (s : State) : Bool :=
  p == .assured && !s.resetLine &&
    match s.assured.queue with
    | f :: _ => commandOf .assured f.code f.body == .restart .assured
    | [] => false

/-- Step 1 of a `restart`: every waiting frame but the `restart` itself is discarded (R178). -/
def discardWaiting (p : Port) (s : State) : State :=
  if restartDue p s then
    let assured : PortState := { s.assured with queue := s.assured.queue.take 1 }
    { s with openPort := { s.openPort with queue := [] }, assured := assured }
  else s

/-- RESTART. -/
def execRestart (p : Port) (s : State) : Host.Outcome State Fault Refusal :=
  .next (serve (.restart p) p (judge decodeIgnored restartRule p) (discardWaiting p s))

end Sys2Proof.Machine
end

