-- ==== Sys2Proof/Machine/Events.lean ====
section
/-! DEFINITION. The events of the discrete lines and the wind timeout (chapters 7 and 8.3).

An assertion or release is the change of its line: a command that finds the line already there is no event and
changes nothing (notes/assumptions/4.md). While the RESET line is asserted every block stands at its power-on values,
so a line's change then moves the line state and the power-on value that follows it, and nothing else (R179). -/

namespace Sys2Proof.Machine

/-- The records changed by `f`, and the lines following them in the same event (R150, R167). -/
def State.onRecords (s : State) (f : Records → Records) : State := ({ s with records := f s.records } : State).drive

/-- The wind record of the records changed, nothing acting on it. -/
def Records.setWind (r : Records) (f : Wind → Wind) : Records :=
  { r with world := { r.world with wind := f r.world.wind } }

/-! ## The ESTOP line (R153, R154) -/

/-- The assertion of the ESTOP line (R153, steps 1 to 4). -/
def estopRecords (r : Records) : Records :=
  let W : World := { r.world with estopLine := true }
  let out := cutForEstop W (r.fleet.addHoldAll .estop)
  { r with
    world := W
    fleet := (raiseCuts out.1 .estop out.2).raise { carriage := none, handle := none, value := .estop out.2.length } }

/-- The ESTOP line state set, nothing else (R153, R154). -/
def putEstopLine (v : Bool) (r : Records) : Records := { r with world := { r.world with estopLine := v } }

/-- ESTOP_ASSERTED (R153). -/
def execEstopAsserted (s : State) : Host.Outcome State Fault Refusal :=
  .next (if s.records.world.estopLine then s
    else if s.resetLine then s.onRecords (putEstopLine true)
    else s.onRecords estopRecords)

/-- ESTOP_RELEASED (R154). -/
def execEstopReleased (s : State) : Host.Outcome State Fault Refusal := .next (s.onRecords (putEstopLine false))

/-! ## The MAINT_KEY line (R144, R147) -/

/-- The release of MAINT_KEY (R147): windows closed, then steps 2 to 4. -/
def keyReleasedRecords (r : Records) : Records :=
  let W : World := { r.world with keyPresent := false, windows := Vector.replicate 8 false }
  { r with world := W, fleet := cutForKey W r.fleet }

/-- The key state set, nothing else (R144). -/
def putKey (v : Bool) (r : Records) : Records := { r with world := { r.world with keyPresent := v } }

/-- MAINT_KEY_RELEASED (R147). -/
def execMaintKeyReleased (s : State) : Host.Outcome State Fault Refusal :=
  .next (if !s.records.world.keyPresent then s
    else if s.resetLine then s.onRecords (putKey false)
    else s.onRecords keyReleasedRecords)

/-- MAINT_KEY_ASSERTED (R144). -/
def execMaintKeyAsserted (s : State) : Host.Outcome State Fault Refusal := .next (s.onRecords (putKey true))

/-! ## The STORM line and the timeout (R138, R139) -/

/-- The timeout expiry is due (R139). -/
def windTimeoutDue (W : World) : Bool :=
  match W.wind.lastTick with
  | some t =>
    !W.wind.stormLine && W.wind.state != .unknown && decide ((W.wind.timeout : Int) ≤ sinceTick W.now t)
  | none => false

/-- The timeout expiry is taken when it is due (R139). -/
def takeWindTimeout (r : Records) : Records :=
  if windTimeoutDue r.world then r.withWind { r.world.wind with state := .unknown } else r

/-- WIND_TIMEOUT (R139). -/
def execWindTimeout (s : State) : Host.Outcome State Fault Refusal :=
  .next (if s.resetLine then s else s.onRecords takeWindTimeout)

/-- The wind record with the STORM line asserted: the state is STORM (R138). -/
def Wind.storming (w : Wind) : Wind := { w with state := .storm, stormLine := true }

/-- STORM_ASSERTED (R138). -/
def execStormAsserted (s : State) : Host.Outcome State Fault Refusal :=
  .next (if s.resetLine then s.onRecords (fun r => r.setWind Wind.storming)
    else s.onRecords (fun r => r.withWind r.world.wind.storming))

/-- STORM_RELEASED (R138): the state stays STORM, and a timeout that is due is taken at once. In reset the state is the
power-on state of a released line. -/
def execStormReleased (s : State) : Host.Outcome State Fault Refusal :=
  .next (if !s.records.world.wind.stormLine then s
    else if s.resetLine then s.onRecords (fun r => r.setWind (fun w => { w with stormLine := false, state := .unknown }))
    else s.onRecords (fun r => takeWindTimeout (r.setWind (fun w => { w with stormLine := false }))))

/-! ## The COND lines (R131) -/

/-- The condition a COND line drives (R131). -/
def wired (n : Fin 8) : CondId := n.castLE (by decide)

/-- A condition's value set, nothing acting on it. -/
def putCondition (n : CondId) (v : Bool) (r : Records) : Records :=
  { r with world := { r.world with conditions := r.world.conditions.set n v } }

/-- COND_LINE_CHANGE (R131, R133). -/
def execCondLineChange (n : Fin 8) (asserted : Bool) (s : State) : Host.Outcome State Fault Refusal :=
  .next (if s.resetLine then s.onRecords (putCondition (wired n) asserted)
    else s.onRecords (changeCondition (wired n) asserted))

end Sys2Proof.Machine
end

