-- ==== Sys2Proof/Machine/Dispatch.lean ====
section
/-! DEFINITION. The effect of each command: one arm for each constructor. -/

namespace Sys2Proof.Machine

/-- The effect of a command on everything but the queue of waiting commands. -/
def exec (i : Instr) (s : State) : Host.Outcome State Fault Refusal :=
  match i with
  | .powerOn pins => Sys2Proof.Machine.execPowerOn pins s
  | .resetAsserted => Sys2Proof.Machine.execResetAsserted s
  | .frameReceived p bytes => Sys2Proof.Machine.execFrameReceived p bytes s
  | .frameLengthFault p n => Sys2Proof.Machine.execFrameLengthFault p n s
  | .characterGapExpiry cause => Sys2Proof.Machine.execCharacterGapExpiry cause s
  | .assuredTransferEnd => Sys2Proof.Machine.execAssuredTransferEnd s
  | .replySent p => Sys2Proof.Machine.execReplySent p s
  | .report p => Sys2Proof.Machine.execReport p s
  | .ask p => Sys2Proof.Machine.execAsk p s
  | .extend p => Sys2Proof.Machine.execExtend p s
  | .trim p => Sys2Proof.Machine.execTrim p s
  | .release p => Sys2Proof.Machine.execRelease p s
  | .confirm p => Sys2Proof.Machine.execConfirm p s
  | .hold p => Sys2Proof.Machine.execHold p s
  | .unhold p => Sys2Proof.Machine.execUnhold p s
  | .clear p => Sys2Proof.Machine.execClear p s
  | .wind p => Sys2Proof.Machine.execWind p s
  | .peek p => Sys2Proof.Machine.execPeek p s
  | .notices p => Sys2Proof.Machine.execNotices p s
  | .marks p => Sys2Proof.Machine.execMarks p s
  | .setrun p => Sys2Proof.Machine.execSetrun p s
  | .setbay p => Sys2Proof.Machine.execSetbay p s
  | .setbayTruncate p => Sys2Proof.Machine.execSetbayTruncate p s
  | .setzone p => Sys2Proof.Machine.execSetzone p s
  | .setcar p => Sys2Proof.Machine.execSetcar p s
  | .setcarConfiguredNo p => Sys2Proof.Machine.execSetcarConfiguredNo p s
  | .lock p => Sys2Proof.Machine.execLock p s
  | .unlock p => Sys2Proof.Machine.execUnlock p s
  | .service p => Sys2Proof.Machine.execService p s
  | .ceiling p => Sys2Proof.Machine.execCeiling p s
  | .setwind p => Sys2Proof.Machine.execSetwind p s
  | .cond p => Sys2Proof.Machine.execCond p s
  | .mask p => Sys2Proof.Machine.execMask p s
  | .maint p => Sys2Proof.Machine.execMaint p s
  | .endmaint p => Sys2Proof.Machine.execEndmaint p s
  | .restore p => Sys2Proof.Machine.execRestore p s
  | .restart p => Sys2Proof.Machine.execRestart p s
  | .estopAsserted => Sys2Proof.Machine.execEstopAsserted s
  | .estopReleased => Sys2Proof.Machine.execEstopReleased s
  | .maintKeyReleased => Sys2Proof.Machine.execMaintKeyReleased s
  | .maintKeyAsserted => Sys2Proof.Machine.execMaintKeyAsserted s
  | .stormAsserted => Sys2Proof.Machine.execStormAsserted s
  | .stormReleased => Sys2Proof.Machine.execStormReleased s
  | .condLineChange n asserted => Sys2Proof.Machine.execCondLineChange n asserted s
  | .muteExpiry c => Sys2Proof.Machine.execMuteExpiry c s
  | .warrantExpiry slot => Sys2Proof.Machine.execWarrantExpiry slot s
  | .windTimeout => Sys2Proof.Machine.execWindTimeout s
  | .byteReceived p b => Sys2Proof.Machine.execByteReceived p b s
  | .selAsserted => Sys2Proof.Machine.execSelAsserted s
  | .unknownRequestCode p => Sys2Proof.Machine.execUnknownRequestCode p s
  | .tick => Sys2Proof.Machine.execTick s

end Sys2Proof.Machine
end

