-- ==== Sys2Proof/Machine/Step.lean ====
section
/-! DEFINITION. One step of the TW48: the oldest waiting command takes effect. -/

namespace Sys2Proof.Machine

/-- The oldest waiting command takes effect on the state whose queue holds the rest; with none waiting the part idles
(notes/assumptions/1.md). -/
def step (s : State) : Host.Outcome State Fault Refusal :=
  match s.pending with
  | [] => .next s
  | i :: rest => exec i { s with pending := rest }

/-- The command a word spells put at the front of the queue. No row of the table gives bits, so no word spells one. -/
def State.withFetchWord (s : State) (nbits w : Nat) : State :=
  match decodeTableWord nbits w with
  | some i => { s with pending := i :: s.pending }
  | none => s

end Sys2Proof.Machine
end

