-- ==== Sys2Proof/Safety.lean ====
section
/-! DEFINITION. What a safe run of the TW48 is: the laws of the device that every step keeps, and the terms in which
statements speak of a request that takes effect. -/

namespace Sys2Proof.Machine

/-! ## A request in front of its port -/

/-- Port `p` has in front of its queue a frame `f` of the command `i`, with `rest` behind it, the RESET line is
released, and the frame passes the station check of R175. -/
structure Offered (s : State) (i : Instr) (p : Port) (f : Frame) (rest : List Frame) : Prop where
  released : s.resetLine = false
  front : (s.port p).queue = f :: rest
  names : commandOf p f.code f.body = i
  station : p = .openPort → f.station.toNat ≤ 63

/-- The status of the first row of a table of refusals that applies. -/
def firstRefusal (rows : List (Prop × Status)) (st : Status) : Prop :=
  match rows with
  | [] => False
  | (cause, code) :: more => (cause ∧ code = st) ∨ (¬cause ∧ firstRefusal more st)

/-- No row of a table of refusals applies. -/
def noRefusal (rows : List (Prop × Status)) : Prop := ∀ row ∈ rows, ¬row.1

/-- The bytes arrive on port `p` one after the other. -/
def receiveAll (p : Port) : List Byte → State → Host.Outcome State Fault Refusal
  | [], s => .next s
  | b :: bs, s =>
    match exec (.byteReceived p b) s with
    | .next t => receiveAll p bs t
    | .fault f => .fault f
    | .refused r => .refused r

/-- Port `p` can take the next byte of a frame, the RESET line released: on the Assured Port a transfer is in progress
into which no whole frame has come. -/
def State.listening (s : State) (p : Port) : Prop :=
  s.resetLine = false ∧
    match p with
    | .openPort => True
    | .assured => ∃ (shifting : Bool) (n : Nat),
        s.transfer = some { shifting := shifting, clocked := n, frameTaken := false }

/-- The replies that wait on port `p` once `n` more bytes have come in: the reply that an Assured Port transfer shifts out
has been sent when the master has clocked its last byte (R176). -/
def State.repliesAfter (s : State) (p : Port) (n : Nat) : List Reply :=
  match p, s.transfer with
  | .assured, some x =>
    if x.shifting = true ∧ ((s.assured.replies.head?.map (fun r => r.bytes.length)).getD 0) ≤ x.clocked + n then
      s.assured.replies.drop 1
    else s.assured.replies
  | _, _ => (s.port p).replies

/-- The transfer in progress once the master has clocked `n` more bytes on the Assured Port, which ended a whole frame
or did not; a transfer into which a whole frame has come stays so (R173, R176). The Open Port changes none. -/
def State.transferAfter (s : State) (p : Port) (n : Nat) (whole : Bool) : Option Transfer :=
  match p with
  | .openPort => s.transfer
  | .assured => s.transfer.map (fun x =>
    { shifting := x.shifting && decide (x.clocked + n < (s.assured.replies.head?.map (fun r => r.bytes.length)).getD 0)
      clocked := x.clocked + n
      frameTaken := x.frameTaken || whole })

/-- Port `p`'s frame in progress has outlasted the 5 ms of R173, so that it ends SHORT when the next byte comes. -/
def State.outlasted (s : State) (p : Port) : Prop := p = .openPort ∧ gapOver s = true

/-! ## Frames -/

/-- Every slot but `i` is the same in both fleets. -/
def Fleet.sameSlotsBut (F G : Fleet) (i : SlotId) : Prop := ∀ j : SlotId, j ≠ i → G.slots[j] = F.slots[j]

/-- Every carriage record but that of `c` is the same in both fleets. -/
def Fleet.sameCarsBut (F G : Fleet) (c : CarId) : Prop := ∀ d : CarId, d ≠ c → G.cars[d] = F.cars[d]

/-- `G`'s holders are those of `F` after the holdings of carriage `c` were recomputed (R39, R68): while the map is LOCKED
its zones that it no longer reaches are free, free ones it reaches are its own, and every other keeps its holder. -/
def Rezoned (W : World) (F G : Fleet) (c : CarId) : Prop :=
  ∀ z : ZoneId, G.holders[z] =
    if W.map.locked = true then
      match F.holders[z] with
      | some d => if d = c ∧ z ∉ reachedZones W G c then none else some d
      | none => if z ∈ reachedZones W G c then some c else none
    else F.holders[z]

/-! ## What an operation on one warrant leaves -/

/-- `G` is `F` after the warrant `w` of slot `i` took `limit` and the mark `mark` (R85, R90, R104): a confirm point not
short of the limit is dropped, the ceiling is computed in full, the entry and the carriage's zones follow, and nothing
else changes. -/
structure Shortened (W : World) (F : Fleet) (i : SlotId) (w : Warrant) (limit : Int) (mark : Option Reason) (G : Fleet) :
    Prop where
  slot : G.slots[i] = { F.slots[i] with
    warrant := some { w with limit := limit, confirm := w.confirm.filter (fun x => beyond w.dir limit x),
                             ceiling := fullCeiling W F { w with limit := limit }, retireOnStop := mark } }
  slots : F.sameSlotsBut G i
  cars : G.cars = F.cars
  list : G.occupancy[(F.cars[w.carriage]).cfg.run] =
    insertEntry (entryOf (runOf W F w.carriage) (F.handleOf i) { w with limit := limit })
      ((F.occupancy[(F.cars[w.carriage]).cfg.run]).filter (fun e => e.handle.slot != i))
  lists : ∀ r : RunId, r ≠ (F.cars[w.carriage]).cfg.run → G.occupancy[r] = F.occupancy[r]
  zones : Rezoned W F G w.carriage
  notices : G.notices = F.notices

/-- `U` is `F` after steps 1 to 6 of R88 for the warrant `w` of slot `i` with a reason, no resumption attempted: the
slot is free under its generation, the warrant has left its carriage and its run's list, the last retire is written, the
carriage's zones are recomputed, and its braking front when the current warrant retired or in a run-out
(notes/assumptions/10.md); nothing else has changed. -/
structure Retired (W : World) (F : Fleet) (i : SlotId) (w : Warrant) (reason : Reason) (U : Fleet) : Prop where
  slot : U.slots[i] = { generation := (F.slots[i]).generation, warrant := none }
  slots : F.sameSlotsBut U i
  car : U.cars[w.carriage] =
    { F.cars[w.carriage] with
      current := if (F.cars[w.carriage]).current = some (F.handleOf i) then none else (F.cars[w.carriage]).current
      stack := (F.cars[w.carriage]).stack.filter (fun h => h != F.handleOf i)
      lastRetire := some (reason, F.handleOf i)
      front := if (F.cars[w.carriage]).current = some (F.handleOf i) ∨ (F.cars[w.carriage]).holds.reversal = true then
          U.frontNow w.carriage
        else (F.cars[w.carriage]).front }
  cars : F.sameCarsBut U w.carriage
  list : U.occupancy[(F.cars[w.carriage]).cfg.run] =
    (F.occupancy[(F.cars[w.carriage]).cfg.run]).filter (fun e => e.handle.slot != i)
  lists : ∀ r : RunId, r ≠ (F.cars[w.carriage]).cfg.run → U.occupancy[r] = F.occupancy[r]
  zones : Rezoned W F U w.carriage
  notices : U.notices = F.notices

/-- The cause has left carriage `c`'s hold set, and a hold set that became empty by it has made one resumption attempt
(R150). -/
def causeLifted (W : World) (F : Fleet) (c : CarId) (x : Cause) : Fleet :=
  let U : Fleet := { F with cars := F.cars.set c { F.cars[c] with holds := (F.cars[c]).holds.remove x } }
  if (F.cars[c]).holds.has x = true ∧ ((F.cars[c]).holds.remove x).isEmpty = true then attempt W U c else U

/-- `G` is `F` after the warrant `w` of slot `i` retired whole (R88): after `Retired`, the retirement of a current warrant
with any reason but RELEASED attempts a resumption, and that of a MAINTENANCE warrant lifts KEY_LOST. -/
def RetiredWhole (W : World) (F : Fleet) (i : SlotId) (w : Warrant) (reason : Reason) (G : Fleet) : Prop :=
  ∃ U, Retired W F i w reason U ∧
    G = (let A := if (F.cars[w.carriage]).current = some (F.handleOf i) ∧ reason ≠ .released then attempt W U w.carriage
           else U
         if w.cls = .maintenance ∧ (A.cars[w.carriage]).holds.keyLost = true then causeLifted W A w.carriage .keyLost
         else A)

/-- The warrant of slot `i` as a cut that marks leaves it (R90): drawn back to the cut's limit, with the reason unless it
carries one. -/
def markedSlot (W : World) (F : Fleet) (i : SlotId) (w : Warrant) (reason : Reason) : Slot :=
  { F.slots[i] with
    warrant := some { w with
      limit := cutLimit W F w
      confirm := w.confirm.filter (fun x => beyond w.dir (cutLimit W F w) x)
      ceiling := fullCeiling W F { w with limit := cutLimit W F w }
      retireOnStop := some (w.retireOnStop.getD reason) } }

/-- `G` is `F` after the warrant `w` of slot `i` was cut to its front, or in a run-out to its floor, and marked: it
carries the reason unless it carries one already (R90). -/
def Marked (W : World) (F : Fleet) (i : SlotId) (w : Warrant) (reason : Reason) (G : Fleet) : Prop :=
  Shortened W F i w (cutLimit W F w) (some (w.retireOnStop.getD reason)) G

/-- `G` is `F` after a cut to front that marks (R112): the warrant has retired when its carriage's last report showed
standstill, else it is marked. -/
def StoppedOrMarked (W : World) (F : Fleet) (i : SlotId) (w : Warrant) (reason : Reason) (G : Fleet) : Prop :=
  if (F.cars[w.carriage]).lastV ≤ 5 then RetiredWhole W F i w reason G else Marked W F i w reason G

/-- `G` is what `F` becomes when the members of a list act on it in turn, each whole (R104). -/
def inTurn {α : Type} (acts : α → Fleet → Fleet → Prop) : List α → Fleet → Fleet → Prop
  | [], F, G => G = F
  | x :: xs, F, G => ∃ P, acts x F P ∧ inTurn acts xs P G

/-! ## What a trip leaves -/

/-- The suspended warrant that supervises carriage `c`'s run-out, with its slot: the top of the stack (R44, R122). -/
def Fleet.runOutTop (F : Fleet) (c : CarId) : Option (SlotId × Warrant) :=
  if (F.cars[c]).holds.reversal = true then F.topOf c else none

/-- The fleet from which a trip cuts the top of the stack: the front is anew when the current warrant has just retired by
it (R88, R156). -/
def Fleet.beforeTop (F : Fleet) (c : CarId) (v : Nat) : Fleet :=
  if v ≤ 5 ∧ (F.cars[c]).state ≠ .tripped ∧ (F.currentOf c).isSome = true then
    { F with cars := F.cars.set c { F.cars[c] with front := F.frontNow c } }
  else F

/-- A run's list after the warrant `x`, when there is one, has left it (no limit) or has had its entry written anew to a
limit (R67). -/
def relisted (W : World) (F : Fleet) (x : Option (SlotId × Warrant)) (limit : Warrant → Option Int) (l : List Entry) :
    List Entry :=
  match x with
  | none => l
  | some (i, w) =>
    let rest := l.filter (fun e => e.handle.slot != i)
    match limit w with
    | none => rest
    | some z => insertEntry (entryOf (runOf W F w.carriage) (F.handleOf i) { w with limit := z }) rest

/-- `G` is `F` after a trip of carriage `c` with deciding speed magnitude `v` (R156 to R158), raised by a report or by a
cut to unit; for a report, `F` is the fleet with the report recorded and `G` the one its stages leave, the end of a
run-out included. A first trip writes the record, holds TRIP, raises TRIP with the current handle, and counts: at the
threshold, met by a count at it or above it (notes/assumptions/31.md), the count is 0 and the level, below 2, rises with
DOWNSHIFT. A further trip counts itself alone. The current warrant is gone at standstill, with TRIPPED or the reason it
carried (8), and is marked when the carriage moves. In a run-out the top of the stack is marked, with no current warrant
too (9), and at a report that shows standstill it is gone and REVERSAL with it (R123); a front that is anew is as 10
reads R47. Of the hold set no other cause changes but KEY_LOST, which leaves with a MAINTENANCE warrant's retirement
(R88). The rest of the carriage's record, every other slot, its generation and warrant, every other list and every other
carriage are kept. -/
structure TripActs (W : World) (F : Fleet) (c : CarId) (kind : TripKind) (v : Nat) (byReport : Bool) (G : Fleet) :
    Prop where
  car :
    let k := F.cars[c]
    let first : Bool := decide (k.state ≠ .tripped)
    let full : Bool := first && decide (k.cfg.threshold ≤ k.tripCount + 1)
    let ends : Bool := byReport && decide (v ≤ 5)
    let stopped := if v ≤ 5 then F.currentOf c else none
    let ended := if ends then F.runOutTop c else none
    let maint := fun x : Option (SlotId × Warrant) => x.any (fun y => y.2.cls == .maintenance)
    G.cars[c] = { k with
      state := .tripped
      trip := if first then some { kind := kind, tick := W.now, further := 0 }
        else k.trip.map (fun t => { t with further := min 255 (t.further + 1) })
      tripCount := if full then 0 else if first then k.tripCount + 1 else k.tripCount
      level := if full && decide (k.level < 2) then k.level + 1 else k.level
      holds := { k.holds with
        trip := first || k.holds.trip
        reversal := k.holds.reversal && !ends
        keyLost := k.holds.keyLost && !maint stopped && !maint ended }
      current := if v ≤ 5 then none else k.current
      stack := match ended with
        | some (j, _) => k.stack.filter (fun h => h != F.handleOf j)
        | none => k.stack
      lastRetire := ((ended.or stopped).map (fun x => (x.2.retireOnStop.getD .tripped, F.handleOf x.1))).or k.lastRetire
      front := if stopped.isSome = true ∨ (ends = true ∧ k.holds.reversal = true) then G.frontNow c else k.front }
  cars : F.sameCarsBut G c
  notices :
    let k := F.cars[c]
    let rises : Bool := decide (k.cfg.threshold ≤ k.tripCount + 1) && decide (k.level < 2)
    ∀ n : Fin 15, G.notices[n] =
      if k.state = .tripped then F.notices[n]
      else if n = 0 then (F.notices[n]).occur { carriage := some c, handle := k.current, value := .trip kind }
      else if n = 13 ∧ rises = true then
        (F.notices[n]).occur { carriage := some c, handle := none, value := .downshift (k.level + 1) }
      else F.notices[n]
  stopped : ∀ (i : SlotId) (w : Warrant), F.currentOf c = some (i, w) → v ≤ 5 →
    G.slots[i] = { F.slots[i] with warrant := none }
  marked : ∀ (i : SlotId) (w : Warrant), F.currentOf c = some (i, w) → 5 < v → G.slots[i] = markedSlot W F i w .tripped
  ended : ∀ (i : SlotId) (w : Warrant), F.runOutTop c = some (i, w) → byReport = true → v ≤ 5 →
    G.slots[i] = { F.slots[i] with warrant := none }
  top : ∀ (i : SlotId) (w : Warrant), F.runOutTop c = some (i, w) → (byReport = false ∨ 5 < v) →
    G.slots[i] = markedSlot W (F.beforeTop c v) i w .tripped
  slots : ∀ i : SlotId, (∀ w, F.currentOf c ≠ some (i, w)) → (∀ w, F.runOutTop c ≠ some (i, w)) → G.slots[i] = F.slots[i]
  list :
    let cut := relisted W F (F.currentOf c)
      (fun w => if v ≤ 5 ∧ (F.cars[c]).state ≠ .tripped then none else some (cutLimit W F w))
      F.occupancy[(F.cars[c]).cfg.run]
    let marked := relisted W F (F.runOutTop c) (fun w => some (cutLimit W (F.beforeTop c v) w)) cut
    let left := relisted W F (if v ≤ 5 then F.currentOf c else none) (fun _ => none) marked
    G.occupancy[(F.cars[c]).cfg.run] =
      relisted W F (if byReport = true ∧ v ≤ 5 then F.runOutTop c else none) (fun _ => none) left
  lists : ∀ r : RunId, r ≠ (F.cars[c]).cfg.run → G.occupancy[r] = F.occupancy[r]
  zones : Rezoned W F G c

/-- `G` is `F` after the end of carriage `c`'s run-out (R123): a marked top warrant has retired, REVERSAL is removed, the
ceiling of the current warrant is computed in full and the braking front anew, and an attempt to resume is made. -/
def RunOutEnds (W : World) (F : Fleet) (c : CarId) (G : Fleet) : Prop :=
  ∃ P : Fleet,
    (∀ (j : SlotId) (top : Warrant) (reason : Reason), F.topOf c = some (j, top) → top.retireOnStop = some reason →
      RetiredWhole W F j top reason P) ∧
    ((∀ (j : SlotId) (top : Warrant), F.topOf c = some (j, top) → top.retireOnStop = none) → P = F) ∧
    let Q : Fleet := { P with
      cars := P.cars.set c { P.cars[c] with holds := (P.cars[c]).holds.remove .reversal }
      slots := match P.currentOf c with
        | some (i, w) => P.slots.set i { P.slots[i] with warrant := some { w with ceiling := fullCeiling W P w } }
        | none => P.slots }
    G = attempt W { Q with cars := Q.cars.set c { Q.cars[c] with front := Q.frontNow c } } c

/-- The records with another fleet. -/
def Records.withFleet (r : Records) (F : Fleet) : Records := { r with fleet := F }

/-- The records with another world. -/
def Records.withWorld (r : Records) (W : World) : Records := { r with world := W }

/-! ## The laws of the device -/

/-- R150 and R167: each HOLD line is asserted exactly when its carriage is UNCONFIGURED or its hold set is not empty,
and ATTN exactly when a kind is visible. -/
def State.lineLaw (s : State) : Prop :=
  (∀ c : CarId, s.holdLines[c] = (s.records.fleet.cars[c]).heldLine) ∧ s.attn = s.records.fleet.attn

/-- R77: while the map is UNLOCKED no warrant is live. -/
def State.unlockedLaw (s : State) : Prop :=
  s.records.world.map.locked = false → ∀ i : SlotId, (s.records.fleet.slots[i]).warrant = none

/-- R66: every live warrant is either its carriage's current warrant (GRANTED or ACTIVE) or on that carriage's stack
(SUSPENDED), and every handle a carriage holds names such a warrant. -/
structure Fleet.Book (F : Fleet) : Prop where
  current : ∀ (c : CarId) (h : Handle), (F.cars[c]).current = some h →
    ∃ w, F.live h = some w ∧ w.carriage = c ∧ w.state ≠ .suspended
  stacked : ∀ (c : CarId) (h : Handle), h ∈ (F.cars[c]).stack →
    ∃ w, F.live h = some w ∧ w.carriage = c ∧ w.state = .suspended
  owned : ∀ (i : SlotId) (w : Warrant), (F.slots[i]).warrant = some w →
    if w.state = .suspended then F.handleOf i ∈ (F.cars[w.carriage]).stack
    else (F.cars[w.carriage]).current = some (F.handleOf i)
  nodup : ∀ c : CarId, (F.cars[c]).stack.Nodup

/-- R66 with R77: the warrants are in order. -/
def State.bookLaw (s : State) : Prop := s.records.fleet.Book ∧ s.unlockedLaw

/-- R116: no suspension stack holds more than three handles. -/
def State.stackLaw (s : State) : Prop := ∀ c : CarId, (s.records.fleet.cars[c]).stack.length ≤ 3

/-- R67: an occupancy list is in order and holds no two entries of one slot; each entry belongs to a live warrant of a
carriage of that run; and each live warrant has an entry on the list of its carriage's run. -/
structure Fleet.Lists (F : Fleet) : Prop where
  ordered : ∀ r : RunId, (F.occupancy[r]).Pairwise (fun a b => a.before b = true)
  oneSlot : ∀ r : RunId, ((F.occupancy[r]).map (fun e => e.handle.slot)).Nodup
  belongs : ∀ (r : RunId) (e : Entry), e ∈ F.occupancy[r] →
    ∃ w, F.live e.handle = some w ∧ w.carriage = e.carriage ∧ (F.cars[w.carriage]).cfg.run = r
  entered : ∀ (i : SlotId) (w : Warrant), (F.slots[i]).warrant = some w →
    ∃ e ∈ F.occupancy[(F.cars[w.carriage]).cfg.run], e.handle = F.handleOf i

/-- R67: an entry holds the carriage, the handle and the first and last unit of its warrant's span. -/
def Fleet.Spans (W : World) (F : Fleet) : Prop :=
  ∀ (r : RunId) (e : Entry) (w : Warrant), e ∈ F.occupancy[r] → F.live e.handle = some w →
    e = entryOf W.map.runs[r] e.handle w

/-- R67 with R66 and R77. -/
def State.listLaw (s : State) : Prop :=
  s.records.fleet.Lists ∧ s.records.fleet.Spans s.records.world ∧ s.bookLaw

/-- R157: a downshift level lies in 0 to 2, and a trip count is less than its downshift threshold. -/
def State.downshiftLaw (s : State) : Prop :=
  ∀ c : CarId, (s.records.fleet.cars[c]).level ≤ 2 ∧
    (s.records.fleet.cars[c]).tripCount < (s.records.fleet.cars[c]).cfg.threshold

/-- R155, R156: a carriage has a trip record exactly while it is TRIPPED, and then it holds the cause TRIP. -/
def State.tripLaw (s : State) : Prop :=
  ∀ c : CarId, ((s.records.fleet.cars[c]).state = .tripped ↔ (s.records.fleet.cars[c]).trip.isSome = true) ∧
    ((s.records.fleet.cars[c]).state = .tripped → (s.records.fleet.cars[c]).holds.trip = true)

/-- R164, R166: a notice count is at most 255. -/
def State.noticeLaw (s : State) : Prop := ∀ k : Fin 15, (s.records.fleet.notices[k]).count ≤ 255

/-- R75 with R77: no live warrant's ceiling exceeds its carriage's max speed. -/
def State.ceilingLaw (s : State) : Prop :=
  (∀ (i : SlotId) (w : Warrant), (s.records.fleet.slots[i]).warrant = some w →
    w.ceiling ≤ (s.records.fleet.cars[w.carriage]).cfg.maxSpeed) ∧ s.unlockedLaw

/-- R63, R102: a live warrant has an expiry tick exactly while it is GRANTED. -/
def State.expiryLaw (s : State) : Prop :=
  ∀ (i : SlotId) (w : Warrant), (s.records.fleet.slots[i]).warrant = some w →
    (w.expiry.isSome = true ↔ w.state = .granted)

/-- R156 with R66: the current warrant of a TRIPPED carriage, when it has one, carries retire-on-stop. -/
def State.markLaw (s : State) : Prop :=
  (∀ (c : CarId) (i : SlotId) (w : Warrant), (s.records.fleet.cars[c]).state = .tripped →
    s.records.fleet.currentOf c = some (i, w) → w.retireOnStop.isSome = true) ∧ s.bookLaw

/-- R10, R39, R68: a zone has a holder only while the map is LOCKED, and then one that reaches it by its reservation or
its present extent. With R67, R66 and R77. -/
def State.zoneLaw (s : State) : Prop :=
  (∀ (z : ZoneId) (c : CarId), s.records.fleet.holders[z] = some c →
    s.records.world.map.locked = true ∧ z ∈ reachedZones s.records.world s.records.fleet c) ∧ s.listLaw

/-- R2: a PLAIN bay is 200 mm or longer, and a CELLED one has 2 to 32 cells of 100 to 4,095 mm. -/
def TrackMap.lengthsInRange (m : TrackMap) : Prop :=
  ∀ (r : RunId) (b : Bay), b ∈ (m.runs[r]).bays →
    match b.shape with
    | .plain l => 200 ≤ l
    | .celled l n => 100 ≤ l ∧ l ≤ 4095 ∧ 2 ≤ n ∧ n ≤ 32

/-- R65: rear, confirm point, limit and target of a live warrant stand in order in its direction, and on its run. The
confirm point that R72 computes for a carriage wholly off the run's end is the position beside it, no further
(notes/assumptions/45.md). -/
structure Ordered (r : Run) (w : Warrant) : Prop where
  rear : 0 ≤ w.rear ∧ w.rear ≤ r.last
  limit : 0 ≤ w.limit ∧ w.limit ≤ r.last
  target : 0 ≤ w.target ∧ w.target ≤ r.last
  behind : atOrBeyond w.dir w.limit w.rear = true
  short : atOrBeyond w.dir w.target w.limit = true
  confirm : ∀ x, w.confirm = some x → beyond w.dir w.limit x = true ∧ -1 ≤ x ∧ x ≤ r.length ∧
    (0 ≤ x ∧ x ≤ r.last → atOrBeyond w.dir x w.rear = true)

/-- R65 with R2, R19, R34 and R77: every live warrant's fields stand in order; bay lengths lie in their ranges; every
configured carriage of a LOCKED map stands on a run with positions; no extent ends below its start; and no warrant is live
while the map is UNLOCKED. -/
def State.orderLaw (s : State) : Prop :=
  let W := s.records.world
  let F := s.records.fleet
  (∀ (i : SlotId) (w : Warrant), (F.slots[i]).warrant = some w → Ordered (runOf W F w.carriage) w) ∧
    W.map.lengthsInRange ∧
    (W.map.locked = true → ∀ c : CarId, (F.cars[c]).configured = true → 0 < (runOf W F c).length) ∧
    (∀ (c : CarId) (p : Pose), (F.cars[c]).pose = some p → p.lower ≤ p.upper) ∧ s.bookLaw

/-- R174: at most 8 places of a queue are held, and at most 8 BUSY replies wait on a port. -/
def State.queueLaw (s : State) : Prop := ∀ p : Port, (s.port p).places ≤ 8 ∧ (s.port p).busyWaiting ≤ 8

/-- R144: windows are open only while the key is present; in reset none is open (R179). -/
def State.windowLaw (s : State) : Prop :=
  s.records.world.keyPresent = false ∨ s.resetLine = true → ∀ r : RunId, s.records.world.windows[r] = false

/-- R138: while the STORM line is asserted the wind state is STORM. -/
def State.stormLaw (s : State) : Prop := s.records.world.wind.stormLine = true → s.records.world.wind.state = .storm

/-! ## What a demand reaches -/

/-- The live warrants for which `p` holds, by carriage and within one from the bottom of the stack to the current warrant
(R104, R165). -/
def reachedBy (F : Fleet) (p : Handle → Warrant → Bool) : List Reached :=
  (List.finRange 16).flatMap (fun c =>
    ((warrantsOf F c).filter (fun h => (F.live h).any (p h))).map (fun h => (c, h)))

/-- The CUT_BACK record after one occurrence for each warrant reached, in order (R104, R166). -/
def cutBacks (source : CutSource) (reached : List Reached) (n : Notice) : Notice :=
  reached.foldl (fun n x => n.occur { carriage := some x.1, handle := some x.2, value := .cutBack source }) n

/-- A rise of the wind into `entered` reaches the warrant `w` of handle `h`, on an EXPOSED run (R141 to R143): a
suspended one under STORM, or opening under GALE or UNKNOWN; a current one that is not closing EMERGENCY travel under
STORM, or opening under GALE or UNKNOWN. A rise into BREEZE reaches none. -/
def windMeets (W : World) (F : Fleet) (w : Warrant) : Bool :=
  let r := runOf W F w.carriage
  let opens := decide (r.closeDir ≠ w.dir)
  r.exposed && match W.wind.state with
    | .storm => decide (w.state = .suspended) || opens || decide (w.cls ≠ .emergency)
    | .gale => opens
    | .unknown => opens
    | .calm => false
    | .breeze => false

/-- What a rise of the wind does to the warrant of a handle (R140 to R143). A suspended one that it retires has the reason
WIND, whatever mark it carries (notes/assumptions/47.md). -/
def windTurn (W : World) (h : Handle) (F G : Fleet) : Prop :=
  match F.live h with
  | none => G = F
  | some w =>
    let car := F.cars[w.carriage]
    let cutBack := fun P : Fleet =>
      P.raise { carriage := some w.carriage, handle := some h, value := .cutBack .wind }
    if windMeets W F w = false then G = F
    else if w.state = .suspended then ∃ P, G = cutBack P ∧
      if car.holds.reversal = true ∧ car.stack.getLast? = some h then Marked W F h.slot w .wind P
      else RetiredWhole W F h.slot w .wind P
    else if cutLimit W F w = w.limit then G = F
    else ∃ P, G = cutBack P ∧ Shortened W F h.slot w (cutLimit W F w) w.retireOnStop P

/-- What the release of MAINT_KEY does to the warrant of a handle on a stack: a MAINTENANCE one retires KEY_LOST, or is
marked when it supervises a run-out (R143, R147). It retires with KEY_LOST whatever mark it carries
(notes/assumptions/47.md). -/
def keyStackTurn (W : World) (h : Handle) (F G : Fleet) : Prop :=
  match F.live h with
  | none => G = F
  | some w =>
    let car := F.cars[w.carriage]
    if w.cls = .maintenance ∧ w.state = .suspended then
      if car.holds.reversal = true ∧ car.stack.getLast? = some h then Marked W F h.slot w .keyLost G
      else RetiredWhole W F h.slot w .keyLost G
    else G = F

/-- What the release of MAINT_KEY does to carriage `c`'s current warrant: with a MAINTENANCE one the carriage holds
KEY_LOST, and the warrant is cut and marked or, at standstill, retires, which lifts KEY_LOST again (R112, R147). -/
def keyCurrentTurn (W : World) (c : CarId) (F G : Fleet) : Prop :=
  match F.currentOf c with
  | some (i, w) =>
    if w.cls = .maintenance ∧ w.state ≠ .suspended then
      let d := w.carriage
      StoppedOrMarked W { F with cars := F.cars.set d { F.cars[d] with holds := (F.cars[d]).holds.add .keyLost } } i w
        .keyLost G
    else G = F
  | none => G = F

/-- What the ESTOP demand does to carriage `c`'s current warrant (R112, R153). -/
def estopTurn (W : World) (c : CarId) (F G : Fleet) : Prop :=
  match F.currentOf c with
  | some (i, w) => StoppedOrMarked W F i w .estop G
  | none => G = F

/-- `G` is `F` after the wind record, now that of `W`, has changed from the state `old` (R140): nothing when the state
is the same, the WIND notice alone when the rank has not risen. At a rise WIND is raised once; a current warrant the
rise reaches is cut to its front with its mark kept, and a suspended one retires (47), but for the one that supervises a
run-out, which is marked WIND; CUT_BACK is raised for each warrant changed. CLOSE_CALL is raised when the state goes
from rank 0 or 1 to rank 2 or 3, with the number of warrants reached, their limits moved or not
(notes/assumptions/46.md), and the last of them; every warrant not reached is kept. The warrants are taken carriage by
carriage, each with its entry, its carriage's record and zones, and a resumption within its carriage's turn (14). The
clauses on warrants are for fleets in which no KEY_LOST is held, whose removal could resume another warrant within the
rise. -/
structure WindActs (W : World) (old : WindState) (F G : Fleet) : Prop where
  same : old = W.wind.state → G = F
  turns : old.rank < W.wind.state.rank → ∃ P : Fleet,
    inTurn (fun c F' G' => inTurn (windTurn W) (warrantsOf F' c) F' G') (List.finRange 16)
      (F.raise { carriage := none, handle := none, value := .wind old W.wind.state W.wind.gust }) P ∧
    G.cars = P.cars ∧ G.slots = P.slots ∧ G.occupancy = P.occupancy ∧ G.holders = P.holders ∧
    ∀ n : Fin 15, n ≠ 6 → G.notices[n] = P.notices[n]
  fall : old ≠ W.wind.state → W.wind.state.rank ≤ old.rank →
    G = F.raise { carriage := none, handle := none, value := .wind old W.wind.state W.wind.gust }
  rise : old.rank < W.wind.state.rank →
    G.notices[(5 : Fin 15)] = (F.notices[(5 : Fin 15)]).occur
      { carriage := none, handle := none, value := .wind old W.wind.state W.wind.gust }
  closeCall : (G.notices[(6 : Fin 15)]).count =
    if old.rank ≤ 1 ∧ 2 ≤ W.wind.state.rank then min 255 ((F.notices[(6 : Fin 15)]).count + 1)
    else (F.notices[(6 : Fin 15)]).count
  sheltered : F.Book → ∀ (i : SlotId) (w : Warrant), (F.slots[i]).warrant = some w →
    (runOf W F w.carriage).exposed = false → G.slots[i] = F.slots[i]
  current : F.Book → (∀ c : CarId, (F.cars[c]).holds.keyLost = false) → old.rank < W.wind.state.rank →
    ∀ (i : SlotId) (w : Warrant), (F.slots[i]).warrant = some w → w.state ≠ .suspended →
      G.slots[i] = if windMeets W F w = true ∧ cutLimit W F w ≠ w.limit then
          { F.slots[i] with warrant := some { w with
              limit := cutLimit W F w
              confirm := w.confirm.filter (fun x => beyond w.dir (cutLimit W F w) x)
              ceiling := fullCeiling W F { w with limit := cutLimit W F w } } }
        else F.slots[i]
  suspended : F.Book → (∀ c : CarId, (F.cars[c]).holds.keyLost = false) → old.rank < W.wind.state.rank →
    ∀ (i : SlotId) (w : Warrant), (F.slots[i]).warrant = some w → w.state = .suspended →
      let car := F.cars[w.carriage]
      let supervises := car.holds.reversal = true ∧ car.stack.getLast? = some (F.handleOf i)
      (windMeets W F w = false → G.slots[i] = F.slots[i]) ∧
        (windMeets W F w = true → ¬supervises → G.slots[i] = { F.slots[i] with warrant := none } ∧
          F.handleOf i ∉ (G.cars[w.carriage]).stack) ∧
        (windMeets W F w = true → supervises → car.front = F.frontNow w.carriage →
          G.slots[i] = markedSlot W F i w .wind ∧ F.handleOf i ∈ (G.cars[w.carriage]).stack)
  carriages : F.Book → (∀ c : CarId, (F.cars[c]).holds.keyLost = false) →
    ∀ c : CarId, (G.cars[c]).current = (F.cars[c]).current ∧ (G.cars[c]).holds = (F.cars[c]).holds
  notices : F.Book → (∀ c : CarId, (F.cars[c]).holds.keyLost = false) → old.rank < W.wind.state.rank →
    let reached := reachedBy F (fun _ w => windMeets W F w)
    let changed := reachedBy F (fun _ w =>
      windMeets W F w && (decide (w.state = .suspended) || decide (cutLimit W F w ≠ w.limit)))
    G.notices[(1 : Fin 15)] = cutBacks .wind changed F.notices[(1 : Fin 15)] ∧
      (old.rank ≤ 1 → 2 ≤ W.wind.state.rank → G.notices[(6 : Fin 15)] = (F.notices[(6 : Fin 15)]).occur
        { carriage := (lastReached reached).1, handle := (lastReached reached).2,
          value := .closeCall W.wind.state reached.length })

end Sys2Proof.Machine
end

