-- ==== Sys2Proof/Certificates/Slice0/Obligations.lean ====
section
/-! DEFINITION. The statements for the provers: the machine's step and its start, the laws every step keeps, the ports,
the bodies and frames, the arithmetic, and the effect of every command. -/

section

open Sys2Proof Sys2Proof.Machine

/-! ## The machine -/

/-- A step takes the command at the front of the queue and is its effect on the state whose queue holds the rest. On an
empty queue the part idles: that is the model's choice (notes/assumptions/1.md). -/
def Obligations.StepRunsFrontCommand : Prop :=
  (∀ (c : Instr) (rest : List Instr) (s : State), s.pending = c :: rest → step s = exec c { s with pending := rest }) ∧
    ∀ s : State, s.pending = [] → step s = .next s

/-- Every command answers a next state in every state, and leaves the queue of waiting commands to the step. That a
command which names no event that can occur now answers a next state too is the model's choice (notes/assumptions/4.md),
and so is the queue (notes/assumptions/1.md). -/
def Obligations.EveryCommandAnswersNext : Prop :=
  ∀ (c : Instr) (s : State), ∃ t, exec c s = .next t ∧ t.pending = s.pending

/-- The power-on values that the chapters give for the map, the zones, the carriages, the Warrant Table, the conditions
and windows, the wind, the notices, the ports, the Tick Counter and the output lines. That the input lines stand
released, so that every condition is FALSE, the key absent, ESTOP released and the wind state UNKNOWN, and that RATE is
low, is the model's choice for State.reset (notes/assumptions/3.md). The configuration fields that R24 does not number
take their least value (notes/assumptions/5.md), no transfer is in progress (19) and the tick of a port with no frame is
0 (38). -/
def Obligations.ResetValues : Prop :=
  let W := State.reset.records.world
  let F := State.reset.records.fleet
  (∀ r : RunId, W.map.runs[r] =
      { defined := false, bays := [], closeDir := .up, exposed := false, clearance := 0 }) ∧
    (∀ z : ZoneId, W.map.zones[z] = { defined := false, parent := none, access := none, ceiling := none } ∧
      F.holders[z] = none) ∧
    W.map.locked = false ∧ W.now = 0 ∧
    (∀ c : CarId, (F.cars[c]).state = .unconfigured ∧ (F.cars[c]).mute = false ∧ (F.cars[c]).last = none ∧
      (F.cars[c]).pose = none ∧ (F.cars[c]).front = none ∧ (F.cars[c]).trip = none ∧ (F.cars[c]).tripCount = 0 ∧
      (F.cars[c]).level = 0 ∧ (∀ x : Cause, (F.cars[c]).holds.has x = false) ∧ (F.cars[c]).current = none ∧
      (F.cars[c]).stack = [] ∧ (F.cars[c]).lastRetire = none ∧
      (F.cars[c]).cfg = { run := 0, offsets := [0], lowerReach := 0, upperReach := 0, maxSpeed := 1, creepSpeed := 1,
                          deceleration := 10, reactionTime := 0, skewLimit := 0, reportInterval := 50, warningLead := 0,
                          stopWindow := 0, threshold := 2, homeReference := 0 }) ∧
    (∀ i : SlotId, F.slots[i] = { generation := 0, warrant := none }) ∧
    (∀ r : RunId, F.occupancy[r] = [] ∧ W.windows[r] = false) ∧
    (∀ n : CondId, W.conditions[n] = false) ∧ W.keyPresent = false ∧ W.estopLine = false ∧
    (W.wind.state = .unknown ∧ W.wind.mean = none ∧ W.wind.gust = none ∧ W.wind.lastTick = none ∧
      W.wind.breezeThreshold = 80 ∧ W.wind.galeThreshold = 150 ∧ W.wind.stormThreshold = 220 ∧
      W.wind.breezeCap = 300 ∧ W.wind.galeCap = 100 ∧ W.wind.timeout = 10000 ∧ W.wind.stormLine = false) ∧
    (∀ k : Fin 15, F.notices[k] = { pending := false, mask := false, count := 0, detail := none }) ∧
    (∀ p : Port, State.reset.port p = { queue := [], replies := [], assembling := [], lastByte := 0 }) ∧
    State.reset.transfer = none ∧ State.reset.rateHigh = false ∧ State.reset.resetLine = false ∧
    (∀ c : CarId, State.reset.holdLines[c] = true) ∧ State.reset.attn = false

/-- The state after reset keeps every law that the statements below say a step keeps. -/
def Obligations.ResetMeetsLaws : Prop :=
  State.reset.lineLaw ∧ State.reset.bookLaw ∧ State.reset.listLaw ∧ State.reset.ceilingLaw ∧ State.reset.expiryLaw ∧
    State.reset.markLaw ∧ State.reset.tripLaw ∧ State.reset.downshiftLaw ∧ State.reset.stackLaw ∧
    State.reset.queueLaw ∧ State.reset.noticeLaw ∧ State.reset.windowLaw ∧ State.reset.stormLaw ∧
    State.reset.zoneLaw ∧ State.reset.orderLaw

/-- POWER_ON starts the part from any state: every block at its power-on values, with conditions 0 to 7, the key, the
ESTOP line state and the STORM state following the input lines, the RATE pin sampled and the Tick Counter at 0.
RESET_ASSERTED gives the same values at once, from the input lines as the state knows them, and keeps the Open Port
rate; the RESET line is then asserted. Keeping the count of free values and the queue of waiting commands is the model's
(notes/assumptions/1.md, 2.md), and so are the levels that RESET_ASSERTED takes, those the state knows (18), and that no
transfer is in progress at a start (19). -/
def Obligations.StartAndResetLine : Prop :=
  (∀ (pins : Pins) (s : State), exec (.powerOn pins) s = .next
    { State.reset with
      records := { State.reset.records with
        world := { State.reset.records.world with
          conditions := Vector.ofFn (fun n : CondId => decide (n.val < 8) && pins.cond.getLsbD n.val)
          wind := { State.reset.records.world.wind with
            state := if pins.storm then .storm else .unknown, stormLine := pins.storm }
          keyPresent := pins.maintKey
          estopLine := pins.estop }
        unstated := s.records.unstated }
      rateHigh := pins.rate
      pending := s.pending }) ∧
  ∀ s : State, exec .resetAsserted s = .next
    { State.reset with
      records := { State.reset.records with
        world := { State.reset.records.world with
          conditions := Vector.ofFn (fun n : CondId => decide (n.val < 8) && s.records.world.conditions[n])
          wind := { State.reset.records.world.wind with
            state := if s.records.world.wind.stormLine then .storm else .unknown
            stormLine := s.records.world.wind.stormLine }
          keyPresent := s.records.world.keyPresent
          estopLine := s.records.world.estopLine }
        unstated := s.records.unstated }
      rateHigh := s.rateHigh
      resetLine := true
      pending := s.pending }

/-- What an answered request leaves in the state: the records its rule gives, the frame off its queue, the reply formed
behind the others with the station and tag as received, and the HOLD and ATTN lines following the records. Nothing else
changes. The later statements speak of this state. -/
def Obligations.AnsweredRequestFrame : Prop :=
  ∀ (s : State) (p : Port) (f : Frame) (rest : List Frame) (r : Records) (a : Answer),
    let t := s.answer p f rest r a
    t.records = r ∧ (t.port p).queue = rest ∧
      (t.port p).replies = (s.port p).replies ++
        [{ station := f.station, tag := f.tag, status := a.status, body := a.body, overflow := false }] ∧
      (t.port p).assembling = (s.port p).assembling ∧ (t.port p).lastByte = (s.port p).lastByte ∧
      (∀ q : Port, q ≠ p → t.port q = s.port q) ∧ t.transfer = s.transfer ∧ t.rateHigh = s.rateHigh ∧
      t.resetLine = s.resetLine ∧ t.pending = s.pending ∧
      (∀ c : CarId, t.holdLines[c] = (!(r.fleet.cars[c]).configured || !(r.fleet.cars[c]).holds.isEmpty)) ∧
      t.attn = (List.finRange 15).any (fun k => (r.fleet.notices[k]).pending && (r.fleet.notices[k]).mask)

/-! ## The laws every step keeps -/

/-- R150, R167: after every step each HOLD line is asserted exactly when its carriage is UNCONFIGURED or its hold set is
not empty, and ATTN exactly when a kind is visible. -/
def Obligations.LinesFollowRecords : Prop :=
  ∀ s t : State, s.lineLaw → step s = .next t → t.lineLaw

/-- R66, R77: every step keeps each live warrant its carriage's current warrant or on that carriage's stack, and not
both, and no warrant live while the map is UNLOCKED. -/
def Obligations.WarrantBookKept : Prop :=
  ∀ s t : State, s.bookLaw → step s = .next t → t.bookLaw

/-- R67, R10: every step keeps the occupancy lists in order, with one entry for each live warrant on the list of its
carriage's run and no other entry, each entry with the carriage, the handle and the first and last unit of its warrant's
span as it stands, and a holder on no zone while the map is UNLOCKED, and on none that its holder does not reach. -/
def Obligations.OccupancyListsKept : Prop :=
  ∀ s t : State, step s = .next t → (s.listLaw → t.listLaw) ∧ (s.zoneLaw → t.zoneLaw)

/-- R65, R75, R102: every step keeps each live warrant's rear, confirm point, limit and target in order and on its run,
its ceiling at or below its carriage's max speed, and an expiry tick on exactly the GRANTED warrants. That the order
holds even for a carriage that has drifted back out of its span rests on the model's floor (notes/assumptions/21.md); a
confirm point that R72 puts beside the run's end, for a carriage wholly off it, is kept there (45). -/
def Obligations.WarrantFieldsKept : Prop :=
  ∀ s t : State, step s = .next t →
    (s.ceilingLaw → t.ceilingLaw) ∧ (s.expiryLaw → t.expiryLaw) ∧ (s.orderLaw → t.orderLaw)

/-- R156: after every step the current warrant of a TRIPPED carriage, when it has one, carries retire-on-stop. -/
def Obligations.TrippedWarrantMarked : Prop :=
  ∀ s t : State, s.markLaw → step s = .next t → t.markLaw

/-- R155, R157, R116, R164: every step keeps a trip record on exactly the TRIPPED carriages with TRIP in the hold set of
each, downshift levels and trip counts in their bounds, every suspension stack at three handles at most, and every notice
count at 255 at most. -/
def Obligations.TripsAndCountersKept : Prop :=
  ∀ s t : State, step s = .next t →
    (s.tripLaw → t.tripLaw) ∧ (s.downshiftLaw → t.downshiftLaw) ∧ (s.stackLaw → t.stackLaw) ∧
      (s.noticeLaw → t.noticeLaw)

/-- R174, R144, R138: every step keeps at most 8 places of a queue held and at most 8 BUSY replies waiting on a port, the
windows closed while the key is absent, and the wind state STORM while the STORM line is asserted. -/
def Obligations.QueuesWindowsAndStormKept : Prop :=
  ∀ s t : State, step s = .next t →
    (s.queueLaw → t.queueLaw) ∧ (s.windowLaw → t.windowLaw) ∧ (s.stormLaw → t.stormLaw)

/-! ## The ports -/

/-- A whole frame with a matching CRC ends the assembly and is queued when fewer than 8 places are held, else answered
BUSY when fewer than 8 BUSY replies wait, else discarded; the records and the other port are kept. An old frame that the
Open Port's 5 ms have run out on first ends SHORT (notes/assumptions/20.md); a reply that an Assured Port transfer
shifts out has left with its last byte, when the frame's bytes have clocked that, and its place is free for the frame
(23). The transfer has then taken its whole frame. -/
def Obligations.CheckedFrameQueuedOrBusy : Prop :=
  ∀ (p : Port) (station tag code : Byte) (body : List Byte) (s : State),
    let bytes := frameBytes 0xA5 station tag code body
    s.listening p → body.length ≤ 120 → ((s.port p).assembling <+: bytes ∨ s.outlasted p) →
    ∃ t, exec (.frameReceived p bytes) s = .next t ∧
      (¬s.outlasted p → t.records = s.records) ∧
      (s.outlasted p → t.records = s.records.withFleet
        (s.records.fleet.raise { carriage := none, handle := none, value := .frameError p .short })) ∧
      (t.port p).assembling = [] ∧ (∀ q : Port, q ≠ p → t.port q = s.port q) ∧
      t.transfer = s.transferAfter p (bytes.length - (s.port p).assembling.length) true ∧
      (let f : Frame := { station := station, tag := tag, code := code, body := body }
       let q : PortState := { s.port p with
         replies := s.repliesAfter p (bytes.length - (s.port p).assembling.length) }
       if q.places < 8 then (t.port p).queue = q.queue ++ [f] ∧ (t.port p).replies = q.replies
       else if q.busyWaiting < 8 then
         (t.port p).queue = q.queue ∧
           (t.port p).replies = q.replies ++
             [{ station := station, tag := tag, status := .busy, body := [], overflow := true }]
       else (t.port p).queue = q.queue ∧ (t.port p).replies = q.replies)

/-- A frame that ends with a fault is discarded with no reply, the port hunts again, and FRAME_ERROR is raised with the
port and the fault: a CRC that does not match, a length byte above 120, on the Open Port a gap over 5 ms or a character
without its stop bit, and on the Assured Port the release of SEL. An old Open Port frame whose 5 ms have run out first
ends SHORT (notes/assumptions/20.md), and a reply whose last byte the frame's bytes clock out has left (23). A whole
frame with a CRC that does not match is the transfer's whole frame; after a LENGTH fault the transfer can still take
one. -/
def Obligations.FrameFaultsRaised : Prop :=
  let ended := fun (p : Port) (fault : FrameFault) (F : Fleet) =>
    F.raise { carriage := none, handle := none, value := .frameError p fault }
  let faulted := fun (p : Port) (F : Fleet) (n : Nat) (whole : Bool) (s t : State) =>
    t.records = s.records.withFleet F ∧ t.transfer = s.transferAfter p n whole ∧ (t.port p).assembling = [] ∧
      (t.port p).queue = (s.port p).queue ∧ (t.port p).replies = s.repliesAfter p n ∧
      ∀ q : Port, q ≠ p → t.port q = s.port q
  let comes := fun (p : Port) (bytes : List Byte) (fault : FrameFault) (s t : State) =>
    let whole := decide (fault = .crc)
    (¬s.outlasted p →
        faulted p (ended p fault s.records.fleet) (bytes.length - (s.port p).assembling.length) whole s t) ∧
      (s.outlasted p → faulted p (ended p fault (ended p .short s.records.fleet)) bytes.length whole s t)
  (∀ (p : Port) (bytes : List Byte) (s : State), s.listening p → wholeFrame bytes = true → crcMatches bytes = false →
      ((s.port p).assembling <+: bytes ∨ s.outlasted p) →
      ∃ t, exec (.frameReceived p bytes) s = .next t ∧ comes p bytes .crc s t) ∧
  (∀ (p : Port) (n : Byte) (s : State), s.listening p → 120 < n.toNat →
      ((s.port p).assembling <+: [0xA5, n] ∨ s.outlasted p) →
      ∃ t, exec (.frameLengthFault p n) s = .next t ∧ comes p [0xA5, n] .length s t) ∧
  (∀ (cause : ShortCause) (s : State), s.resetLine = false → s.openPort.assembling ≠ [] →
      (cause = .gap → 5 < sinceTick s.records.world.now s.openPort.lastByte) →
      ∃ t, exec (.characterGapExpiry cause) s = .next t ∧
        faulted .openPort (ended .openPort .short s.records.fleet) 0 false s t) ∧
  ∀ s : State, s.resetLine = false → s.transfer ≠ none → s.assured.assembling ≠ [] →
      ∃ t, exec .assuredTransferEnd s = .next t ∧ t.transfer = none ∧
        t.records = s.records.withFleet (ended .assured .short s.records.fleet) ∧ t.assured.assembling = [] ∧
        t.assured.queue = s.assured.queue ∧ t.assured.replies = s.assured.replies ∧ t.openPort = s.openPort

/-- While a port hunts, a byte other than 0xA5 is dropped without notice, and 0xA5 starts a frame; on the Assured Port
the byte counts in the transfer either way (notes/assumptions/23.md), and clocks the reply being shifted out. A byte
that follows a whole frame in the same transfer is dropped, and clocks the reply alone. The bytes of a whole frame that
arrive one after the other, on a hunting port and within one tick, leave what FRAME_RECEIVED leaves for that frame. -/
def Obligations.BytesMakeTheFrame : Prop :=
  (∀ (b : Byte) (s : State), s.lineLaw → s.resetLine = false → s.openPort.assembling = [] →
    exec (.byteReceived .openPort b) s = .next
      (if b = 0xA5 then
        { s with openPort := { s.openPort with assembling := [0xA5], lastByte := s.records.world.now } }
       else s)) ∧
  (∀ (b : Byte) (x : Transfer) (s : State), s.lineLaw → s.resetLine = false → s.assured.assembling = [] →
    s.transfer = some x → x.frameTaken = false →
    ∃ t, exec (.byteReceived .assured b) s = .next t ∧
      t.transfer = s.transferAfter .assured 1 false ∧
      t.assured.assembling = (if b = 0xA5 then [0xA5] else []) ∧ t.assured.queue = s.assured.queue ∧
      t.assured.replies = s.repliesAfter .assured 1 ∧ t.records = s.records ∧ t.openPort = s.openPort) ∧
  (∀ (b : Byte) (x : Transfer) (s : State), s.lineLaw → s.resetLine = false → s.transfer = some x →
    x.frameTaken = true → exec (.byteReceived .assured b) s = .next
      { s with transfer := s.transferAfter .assured 1 false
               assured := { s.assured with replies := s.repliesAfter .assured 1 } }) ∧
  ∀ (p : Port) (bytes : List Byte) (s : State), s.listening p → (s.port p).assembling = [] → wholeFrame bytes = true →
    receiveAll p bytes s = exec (.frameReceived p bytes) s

/-- SEL starts a transfer that shifts out the oldest waiting reply when there is one; its release ends the transfer and
keeps a reply not wholly clocked out; a reply whose last byte has left is sent and frees its place. That REPLY_SENT on the
Assured Port clocks what is left of the reply in the same transfer is the model's reading (notes/assumptions/24.md). -/
def Obligations.RepliesLeaveInOrder : Prop :=
  (∀ s : State, s.lineLaw → s.resetLine = false → s.transfer = none →
    exec .selAsserted s = .next
      { s with transfer := some { shifting := !s.assured.replies.isEmpty, clocked := 0, frameTaken := false } }) ∧
  (∀ s : State, s.lineLaw → s.resetLine = false → s.transfer ≠ none → s.assured.assembling = [] →
    exec .assuredTransferEnd s = .next { s with transfer := none }) ∧
  (∀ s : State, s.lineLaw → s.resetLine = false →
    exec (.replySent .openPort) s = .next
      { s with openPort := { s.openPort with replies := s.openPort.replies.drop 1 } }) ∧
  ∀ (s : State) (x : Transfer) (r : Reply) (rs : List Reply), s.lineLaw → s.resetLine = false →
    s.transfer = some x → x.shifting = true → s.assured.replies = r :: rs → x.clocked ≤ r.bytes.length →
    exec (.replySent .assured) s = .next
      { s with transfer := some { x with shifting := false, clocked := r.bytes.length }
               assured := { s.assured with replies := rs } }

/-- A request of an unknown code, one whose body is not of its table length, and one from an Open Port station above 63
are refused BAD_FORM with an empty body, and change no record. That a wrong length is found before a request's own port
and lock checks is the model's reading of R175 (notes/assumptions/7.md). -/
def Obligations.MalformedRequestsRefused : Prop :=
  ∀ (i : Instr) (p : Port) (f : Frame) (rest : List Frame) (s : State),
    s.resetLine = false → (s.port p).queue = f :: rest → commandOf p f.code f.body = i →
    (i = .unknownRequestCode p ∨ i.lengthFits f.body = false ∨ (p = .openPort ∧ 63 < f.station.toNat)) →
    exec i s = .next (s.answer p f rest s.records { status := .badForm, body := [] })

/-! ## Bodies and frames -/

/-- Every request body of fixed length decodes to the fields it was encoded from, for every value each field's width
admits. -/
def Obligations.FixedBodiesRoundTrip : Prop :=
  (∀ r : AskBody, r.carriage < 256 → r.target < 2 ^ 24 → r.cls < 256 → r.lifetime < 2 ^ 24 →
    decodeAsk (encodeAsk r) = some r) ∧
  (∀ r : PointBody, r.slot < 256 → r.generation < 256 → r.point < 2 ^ 24 → decodePoint (encodePoint r) = some r) ∧
  (∀ r : HandleBody, r.slot < 256 → r.generation < 256 → decodeHandle (encodeHandle r) = some r) ∧
  (∀ x : Nat, x < 256 → decodeByte (encodeByte x) = some x) ∧
  (∀ r : PairBody, r.fst < 256 → r.snd < 256 → decodePair (encodePair r) = some r) ∧
  (∀ r : TripleBody, r.fst < 256 → r.snd < 256 → r.thd < 256 → decodeTriple (encodeTriple r) = some r) ∧
  (∀ r : WindBody, r.mean < 2 ^ 16 → r.gust < 2 ^ 16 → decodeWind (encodeWind r) = some r) ∧
  (∀ r : SetRunBody, r.run < 256 → r.defined < 256 → r.closeDir < 256 → r.exposure < 256 → r.clearance < 2 ^ 16 →
    decodeSetRun (encodeSetRun r) = some r) ∧
  (∀ r : SetBayBody, r.run < 256 → r.bay < 256 → r.kind < 256 → r.length < 2 ^ 16 → r.count < 256 →
    r.ceiling < 2 ^ 16 → r.auto < 256 → r.operator < 256 → r.maintenance < 256 → r.emergency < 256 →
    r.inService < 256 → r.entryCheck < 256 → r.condition < 256 → r.zone < 256 →
    decodeSetBay (encodeSetBay r) = some r) ∧
  (∀ r : SetZoneBody, r.zone < 256 → r.defined < 256 → r.parent < 256 → r.overriding < 256 → r.auto < 256 →
    r.operator < 256 → r.maintenance < 256 → r.emergency < 256 → r.ceiling < 2 ^ 16 →
    decodeSetZone (encodeSetZone r) = some r) ∧
  (∀ r : CeilingBody, r.run < 256 → r.bay < 256 → r.ceiling < 2 ^ 16 → decodeCeiling (encodeCeiling r) = some r) ∧
  (∀ r : SetWindBody, r.breeze < 2 ^ 16 → r.gale < 2 ^ 16 → r.storm < 2 ^ 16 → r.breezeCap < 2 ^ 16 →
    r.galeCap < 2 ^ 16 → r.timeout < 2 ^ 16 → decodeSetWind (encodeSetWind r) = some r) ∧
  ∀ masks : List Bool, masks.length = 15 → decodeMask (encodeMask masks) = some masks

/-- The two request bodies of varying length, `report` and `setcar` with configured yes, decode to the fields they were
encoded from, negative speeds and offsets included; the bytes of a request frame are a whole frame with a matching CRC,
and give back its station, tag, code and body. -/
def Obligations.VaryingBodiesAndFrames : Prop :=
  (∀ r : ReportBody, r.carriage < 256 → 1 ≤ r.positions.length → r.positions.length ≤ 8 →
    (∀ x ∈ r.positions, x < 2 ^ 24) → -(2 ^ 15) ≤ r.speed → r.speed < 2 ^ 15 →
    decodeReport (encodeReport r) = some r) ∧
  (∀ r : SetCarBody, r.carriage < 256 → r.configured < 256 → r.run < 256 → r.offsets.length < 256 →
    (∀ x ∈ r.offsets, -(2 ^ 15) ≤ x ∧ x < 2 ^ 15) → r.lowerReach < 2 ^ 16 → r.upperReach < 2 ^ 16 →
    r.maxSpeed < 2 ^ 16 → r.creepSpeed < 256 → r.deceleration < 2 ^ 16 → r.reactionTime < 2 ^ 16 →
    r.skewLimit < 2 ^ 16 → r.reportInterval < 2 ^ 16 → r.warningLead < 2 ^ 16 → r.stopWindow < 2 ^ 16 →
    r.threshold < 256 → r.homeReference < 2 ^ 24 →
    decodeSetCar (encodeSetCar r) = some r) ∧
  ∀ (station tag code : Byte) (body : List Byte), body.length ≤ 120 →
    wholeFrame (frameBytes 0xA5 station tag code body) = true ∧
      crcMatches (frameBytes 0xA5 station tag code body) = true ∧
      frameOf (frameBytes 0xA5 station tag code body) =
        { station := station, tag := tag, code := code, body := body }

/-! ## The arithmetic -/

/-- A position translates to no unit off the run; on it, it lies in a bay, and its unit is the PLAIN bay or the cell of
the CELLED bay that holds it, numbered by the units that lie below it. A position rounded out lies on the run in every
case: at 0 or the last position from off it, and at the far boundary of its unit from on it. -/
def Obligations.TranslationOfPositions : Prop :=
  ∀ (r : Run) (x : Int),
    ((r.defined = false ∨ x < 0 ∨ (r.length : Int) ≤ x) → r.unitAt x = none) ∧
    (r.defined = true → 0 ≤ x → x < r.length →
      ∃ b bay, r.bays[b]? = some bay ∧ (r.bayStart b : Int) ≤ x ∧ x < r.bayStart b + bay.length) ∧
    (∀ (b : Nat) (bay : Bay), r.defined = true → r.bays[b]? = some bay → (r.bayStart b : Int) ≤ x →
      x < r.bayStart b + bay.length →
      r.unitAt x = some
        (let below := ((r.bays.take b).map Bay.unitCount).sum
         match bay.shape with
         | .plain l => { bay := b, num := below, first := r.bayStart b, stop := r.bayStart b + l }
         | .celled l _ =>
           let c := (x - r.bayStart b) / l
           { bay := b, num := below + c.toNat, first := r.bayStart b + c * l, stop := r.bayStart b + c * l + l })) ∧
    (r.defined = true → r.units.map TrackUnit.num = List.range ((r.bays.map Bay.unitCount).sum)) ∧
    (∀ d : Dir, 0 < r.length →
      0 ≤ r.roundOut d x ∧ r.roundOut d x ≤ r.last ∧ (x < 0 → r.roundOut d x = 0) ∧
        (r.last < x → r.roundOut d x = r.last) ∧
        (0 ≤ x → x ≤ r.last → ∃ u, r.unitAt x = some u ∧ r.roundOut d x = u.far d ∧
          atOrBeyond d (r.roundOut d x) x = true))

/-- The braking distance is the sum of the reaction allowance and the braking run, each rounded up, and lies in 0 to
204,000 mm for every speed, deceleration and reaction time of a report. -/
def Obligations.BrakingDistanceRoundsUp : Prop :=
  ∀ v t a : Nat, 10 ≤ a → ∃ allowance run : Nat, brakingDistance v t a = allowance + run ∧
    IsLeast { n : Nat | v * t ≤ 1000 * n } allowance ∧ IsLeast { n : Nat | v * v ≤ 2 * a * n } run ∧
    (v ≤ 2000 → t ≤ 2000 → allowance ≤ 4000 ∧ run ≤ 200000) ∧ (1 ≤ v → 1 ≤ run)

/-- Each truck's reading is its position less its offset; the reference is the floor of half the sum of the two
outermost readings, and the skew their difference. With positions and offsets in their ranges, readings and reference
lie in -32,767 to 1,081,343 and the skew in 0 to 1,114,110; with one truck the reference is its reading and the skew 0.
The extent runs from the reference less the lower reach to the reference plus the upper reach, and the carriage occupies
the units touched by the part of its recorded extent that lies on its run (R34). -/
def Obligations.ReferenceAndSkew : Prop :=
  ∀ (cfg : CarConfig) (positions : List Nat), positions.length = cfg.offsets.length → positions ≠ [] →
    let rs := List.zipWith (fun (p : Nat) (o : Int) => (p : Int) - o) positions cfg.offsets
    let pose := poseOf cfg positions
    (∃ hi ∈ rs, ∃ lo ∈ rs, (∀ r ∈ rs, lo ≤ r ∧ r ≤ hi) ∧ 2 * pose.reference ≤ hi + lo ∧
      hi + lo < 2 * pose.reference + 2 ∧ (pose.skew : Int) = hi - lo) ∧
    ((∀ p ∈ positions, p ≤ 1048575) → (∀ o ∈ cfg.offsets, -32768 ≤ o ∧ o ≤ 32767) →
      (∀ r ∈ rs, -32767 ≤ r ∧ r ≤ 1081343) ∧ -32767 ≤ pose.reference ∧ pose.reference ≤ 1081343 ∧
        pose.skew ≤ 1114110) ∧
    (∀ r0, rs = [r0] → pose.reference = r0 ∧ pose.skew = 0) ∧
    pose.lower = pose.reference - cfg.lowerReach ∧ pose.upper = pose.reference + cfg.upperReach ∧
    ∀ (W : World) (F : Fleet) (c : CarId), (F.cars[c]).pose = some pose →
      let run := runOf W F c
      let low := max pose.lower 0
      let high := min pose.upper run.last
      occupied W F c = run.units.filter (fun u => decide (low ≤ high ∧ u.first ≤ high ∧ low < u.stop))

/-- The braking front is none without a direction of supervision, the leading end at standstill, and otherwise the
leading end moved on by the braking distance; it never lies behind the leading end. -/
def Obligations.BrakingFrontOfReport : Prop :=
  ∀ (cfg : CarConfig) (p : Pose) (v : Nat),
    frontAt cfg p v none = none ∧
    (v ≤ 5 → frontAt cfg p v (some .up) = some p.upper ∧ frontAt cfg p v (some .down) = some p.lower) ∧
    (5 < v → frontAt cfg p v (some .up) = some (p.upper + brakingDistance v cfg.reactionTime cfg.deceleration) ∧
      frontAt cfg p v (some .down) = some (p.lower - brakingDistance v cfg.reactionTime cfg.deceleration)) ∧
    ∀ (d : Dir) (f : Int), frontAt cfg p v (some d) = some f → atOrBeyond d f (p.lead d) = true

/-- The chain of a bay is its zone and that zone's ancestors, four at most. The access of its units for a class is that
of the nearest zone of the chain with an access override, else the bay's own; their ceiling is the least of the bay's
and every ceiling override of the chain, and for a warrant whose class has CREEP there, the lesser of that and the creep
speed. A ceiling over units is the least of its start and theirs, and a warrant's in full starts from the max speed and
takes the units from the leading unit to the limit unit, or a SUSPENDED one's whole span; that these are taken in either
order, with an end off the run as its end unit, is the model's reading (notes/assumptions/12.md). The effective ceiling
of a report is the least of the warrant ceiling, the downshift cap and the wind cap; the downshift cap lies between
creep speed and max speed, and the tolerance in 5 to 100 mm/s. -/
def Obligations.EffectiveCeilingAndTolerance : Prop :=
  (∀ (m : TrackMap) (b : Bay), (m.chain b).length ≤ 4 ∧ (m.chain b)[0]? = b.zone ∧
    ∀ j < 3, (m.chain b)[j + 1]? = (m.chain b)[j]?.bind (fun z => (m.zones[z]).parent)) ∧
  (∀ (m : TrackMap) (b : Bay) (k : Cls),
    let own := fun a : AccessSet => match k with
      | .auto => a.auto
      | .operator => a.operator
      | .maintenance => a.maintenance
      | .emergency => a.emergency
    ((∀ z ∈ m.chain b, (m.zones[z]).access = none) → m.access b k = own b.access) ∧
      (∀ (nearer : List ZoneId) (z : ZoneId) (above : List ZoneId) (a : AccessSet),
        m.chain b = nearer ++ z :: above → (∀ y ∈ nearer, (m.zones[y]).access = none) → (m.zones[z]).access = some a →
        m.access b k = own a) ∧
      IsLeast { x : Nat | x = b.ceiling ∨ ∃ z ∈ m.chain b, (m.zones[z]).ceiling = some x } (m.ceiling b) ∧
      ∀ creep : Nat, m.ceilingFor b k creep = if m.access b k = .creep then min (m.ceiling b) creep else m.ceiling b) ∧
  (∀ (W : World) (F : Fleet) (c : CarId) (k : Cls) (start : Nat) (us : List TrackUnit),
    IsLeast { x : Nat | x = start ∨ ∃ u ∈ us, ∃ b, (runOf W F c).bay u.bay = some b ∧
      x = W.map.ceilingFor b k (F.cars[c]).cfg.creepSpeed } (leastCeiling W F c k start us)) ∧
  (∀ (W : World) (F : Fleet) (w : Warrant),
    let run := runOf W F w.carriage
    let onRun := fun x : Int => max 0 (min x run.last)
    let a := onRun (if w.state = .suspended then w.rear else (F.cars[w.carriage]).lead w.dir)
    let z := onRun w.limit
    fullCeiling W F w = leastCeiling W F w.carriage w.cls (F.cars[w.carriage]).cfg.maxSpeed
      (run.units.filter (fun u => decide (u.first ≤ max a z ∧ min a z < u.stop)))) ∧
  (∀ k : Carriage, k.cfg.creepSpeed ≤ k.cfg.maxSpeed →
    k.cfg.creepSpeed ≤ downshiftCap k ∧ downshiftCap k ≤ k.cfg.maxSpeed ∧
      (k.level = 0 → downshiftCap k = k.cfg.maxSpeed) ∧
      (k.level = 1 → downshiftCap k = max k.cfg.creepSpeed (k.cfg.maxSpeed / 2)) ∧
      (k.level = 2 → downshiftCap k = max k.cfg.creepSpeed (k.cfg.maxSpeed / 4))) ∧
  (∀ (W : World) (F : Fleet) (c : CarId) (w : Warrant),
    let x := effectiveCeiling W F c w
    x ≤ w.ceiling ∧ x ≤ downshiftCap F.cars[c] ∧
      (((runOf W F c).exposed = false ∨ W.wind.state = .calm) → x = min w.ceiling (downshiftCap F.cars[c])) ∧
      ((runOf W F c).exposed = true → W.wind.state = .breeze →
        x = min (min w.ceiling (downshiftCap F.cars[c])) W.wind.breezeCap) ∧
      ((runOf W F c).exposed = true → W.wind.state ≠ .calm → W.wind.state ≠ .breeze →
        x = min (min w.ceiling (downshiftCap F.cars[c])) W.wind.galeCap)) ∧
  ∀ x : Nat, x ≤ 1000 → tolerance x = max 5 (x / 10) ∧ 5 ≤ tolerance x ∧ tolerance x ≤ 100

/-- The supervising warrant is the current one without REVERSAL in the hold set, and with it the one on top of the
stack, or the current one when the stack is empty. The checks of a report against it are made in the order OVERRUN,
BRAKE_CURVE, OVERSPEED, REVERSE, mirrored for DOWN; REVERSE is not made while REVERSAL is held. With no supervising
warrant UNWARRANTED alone is made. A standstill report of a carriage without a warrant, mute or REVERSAL, whose extent
lies on the run and meets no other carriage's claim, passes: it is answered DONE, records its readings, marks the bays
it touches, and recomputes the carriage's zones, and nothing else changes. -/
def Obligations.EnvelopeChecksInOrder : Prop :=
  (∀ (F : Fleet) (c : CarId),
    let named := fun h : Option Handle => h.bind (fun x => (F.live x).map (fun w => (x.slot, w)))
    let k := F.cars[c]
    (k.holds.reversal = false → F.supervising c = named k.current) ∧
      (k.holds.reversal = true → k.stack = [] → F.supervising c = named k.current) ∧
      ∀ (below : List Handle) (h : Handle) (w : Warrant), k.holds.reversal = true → k.stack = below ++ [h] →
        F.live h = some w → F.supervising c = some (h.slot, w)) ∧
  (∀ (W : World) (F : Fleet) (c : CarId) (i : SlotId) (w : Warrant) (p : Pose) (f speed : Int),
    let L := w.confirm.getD w.limit
    let bound := effectiveCeiling W F c w + tolerance (effectiveCeiling W F c w)
    (F.supervising c = some (i, w) → (F.cars[c]).pose = some p → (F.cars[c]).front = some f → w.dir = .up →
      envelopeCheck W F c speed =
        if L < p.upper then some .overrun else if L < f then some .brakeCurve
        else if bound < speed.natAbs then some .overspeed
        else if speed < -5 ∧ (F.cars[c]).holds.reversal = false then some .reverse else none) ∧
    (F.supervising c = some (i, w) → (F.cars[c]).pose = some p → (F.cars[c]).front = some f → w.dir = .down →
      envelopeCheck W F c speed =
        if p.lower < L then some .overrun else if f < L then some .brakeCurve
        else if bound < speed.natAbs then some .overspeed
        else if 5 < speed ∧ (F.cars[c]).holds.reversal = false then some .reverse else none) ∧
    (F.supervising c = none → envelopeCheck W F c speed = if 5 < speed.natAbs then some .unwarranted else none)) ∧
  ∀ (p : Port) (f : Frame) (rest : List Frame) (s : State) (q : ReportBody) (c : CarId),
    Offered s (.report p) p f rest → decodeReport f.body = some q → q.carriage = c.val →
    let W := s.records.world
    let F := s.records.fleet
    let k := F.cars[c]
    let run := runOf W F c
    let pz := poseOf k.cfg q.positions
    let F1 : Fleet := { F with cars := F.cars.set c { k with
      last := some { positions := q.positions, speed := q.speed, tick := W.now }, pose := some pz, state := .standing
      front := none } }
    k.state ≠ .unconfigured → k.state ≠ .tripped → k.mute = false → k.holds.reversal = false → k.current = none →
    q.positions.length = k.cfg.offsets.length → (∀ x ∈ q.positions, x ≤ 1048575) → q.speed.natAbs ≤ 5 →
    pz.skew ≤ k.cfg.skewLimit → 0 ≤ pz.lower → pz.upper ≤ run.last →
    (∀ u ∈ occupied W F1 c, ∀ x ∈ othersClaims W F1 c, unitsConflict run.clearance u x = false) →
    (∀ z ∈ extentZones W F1 c, ∀ d, F.holders[z] = some d → d = c) →
    ∃ (bays : List Bay) (G : Fleet),
      exec (.report p) s = .next (s.answer p f rest
        ((s.records.withMap { W.map with runs := W.map.runs.set k.cfg.run { run with bays := bays } }).withFleet G)
        { status := .done, body := be 1 3 ++ be 1 (codeOr0 TripKind.code (k.trip.map TripRecord.kind)) ++
            be 1 (if k.holds.isEmpty then 1 else 0) ++ [0xFF, 0x00] }) ∧
      bays = run.bays.mapIdx (fun b bay => if b ∈ (occupied W F1 c).map TrackUnit.bay then
        { bay with traversed := true, stoppedIn := true } else bay) ∧
      G.cars = F1.cars ∧ G.slots = F.slots ∧ G.occupancy = F.occupancy ∧ G.notices = F.notices ∧ Rezoned W F G c

/-- The new wind state of a gust is the highest level that is reached or held from the state before it, else CALM. A
threshold less 20 that lies below 0 is taken as 0. -/
def Obligations.WindStateFromGust : Prop :=
  ∀ (w : Wind) (g : Nat),
    let before : Nat := match w.state with
      | .calm => 0
      | .breeze => 1
      | .gale => 2
      | .unknown => 2
      | .storm => 3
    let reached := fun t : Nat => t ≤ g
    let held := fun (rank t : Nat) => rank ≤ before ∧ max 0 ((t : Int) - 20) ≤ g
    let stands := fun (rank t : Nat) => reached t ∨ held rank t
    (stands 3 w.stormThreshold → newWindState w g = .storm) ∧
    (¬stands 3 w.stormThreshold → stands 2 w.galeThreshold → newWindState w g = .gale) ∧
    (¬stands 3 w.stormThreshold → ¬stands 2 w.galeThreshold → stands 1 w.breezeThreshold →
      newWindState w g = .breeze) ∧
    (¬stands 3 w.stormThreshold → ¬stands 2 w.galeThreshold → ¬stands 1 w.breezeThreshold →
      newWindState w g = .calm)

/-- A grant walk tests the units beyond its base up to the target's, in the order met, from the first on. With no
blocker it has passed them all and its limit is the target; else its limit is the far boundary of the last passing unit,
or the base when the start unit failed, and the unit it stopped at fails the check its blocker names and passes every
check before that one in the order SERVICE, CEILING, ACCESS, CONDITION, WIND, MAINT, ZONE, OCCUPIED, CHECK. Each unit it
passed fails none. In a resumption a unit of the warrant's old span meets SERVICE, CONDITION, WIND and MAINT alone. All
passed units that meet a check bay lie in one bay, that of a confirm point the warrant keeps or else the first met; only
a walk that finds none kept records a confirm point, short of that bay; and a walk that CHECK stops has met a second
one. That the bays of the old span are not met in a resumption is the model's reading (notes/assumptions/17.md), the
start of the path is as 13 reads R69, and a confirm point beside the run's end as 45. -/
def Obligations.GrantWalkPassesChecks : Prop :=
  ∀ (W : World) (F : Fleet) (p : WalkPlan),
    let r := runOf W F p.car
    let res := walk W F p
    let path := inOrder p.dir (r.units.filter (fun u =>
      beyond p.dir (u.near p.dir) p.base && atOrBeyond p.dir p.target (u.near p.dir)))
    let old := fun u : TrackUnit => inSpan p.oldSpan u.num
    let meets := fun u : TrackUnit => !old u && (r.bay u.bay).any (fun b =>
      b.entryCheck && !(occupied W F p.car).any (fun v => v.bay == u.bay) &&
        !r.units.any (fun v => v.bay == u.bay && inSpan p.ownSpan v.num))
    let firstMet := (res.passed.reverse.find? meets).map TrackUnit.bay
    let opens := r.closeDir ≠ p.dir
    let windowOpen := W.windows[(F.cars[p.car]).cfg.run]
    let order : List Blocker :=
      [.service, .ceiling, .access, .condition, .wind, .maint, .zone, .occupied, .check]
    let fails := fun (u : TrackUnit) (b : Bay) (k : Blocker) => match k with
      | .service => b.inService = false
      | .ceiling => old u = false ∧ W.map.ceiling b = 0
      | .access => old u = false ∧ W.map.access b p.cls = .deny
      | .condition => ∃ n, b.condition = some n ∧ W.conditions[n] = false
      | .wind => r.exposed = true ∧ ((W.wind.state ∈ [.gale, .unknown, .storm] ∧ opens) ∨
          (W.wind.state = .storm ∧ p.cls ≠ .emergency))
      | .maint => (p.cls ∈ [.auto, .operator] ∧ windowOpen = true) ∨ (p.cls = .maintenance ∧ windowOpen = false)
      | .zone => old u = false ∧ ∃ z ∈ W.map.chain b, ∃ d, F.holders[z] = some d ∧ d ≠ p.car
      | .occupied => old u = false ∧ F.reserves p.car u = false ∧
          ∃ v ∈ othersClaims W F p.car, unitsConflict r.clearance u v = true
      | .check => meets u = true ∧ ∃ n, (p.met.or firstMet) = some n ∧ n ≠ u.bay
    res.passed.reverse <+: path ∧
    (res.blocker = none → res.passed.reverse = path ∧ res.limit = p.target) ∧
    (res.blocker ≠ none → res.limit = (res.passed.head?.map (fun u => u.far p.dir)).getD p.base) ∧
    (∀ k, res.blocker = some k → ∃ u b, path[res.passed.length]? = some u ∧ r.bay u.bay = some b ∧ fails u b k ∧
      ∀ j ∈ order.takeWhile (fun x => x != k), ¬fails u b j) ∧
    (∀ u ∈ res.passed, ∃ b, r.bay u.bay = some b ∧ ∀ k, ¬fails u b k) ∧
    (∀ u ∈ res.passed, meets u = true → (p.met.or firstMet) = some u.bay) ∧
    (res.confirm = if p.met = none then
        firstMet.bind (fun n => (r.bay n).map (fun b => match p.dir with
          | .up => (r.bayStart n : Int) - 1
          | .down => (r.bayStart n : Int) + b.length))
      else none)

/-! ## Map requests -/

/-- The map edits are refused LOCKED on either port while the map is LOCKED, and the requests of the Assured Port alone
are refused PORT_DENIED on the Open Port; a refused request changes no record. The bodies are of their table length, for a
wrong length is found first (notes/assumptions/7.md). -/
def Obligations.LockAndPortRefusals : Prop :=
  ∀ (i : Instr) (p : Port) (f : Frame) (rest : List Frame) (s : State), Offered s i p f rest →
    i.lengthFits f.body = true →
    (s.records.world.map.locked = true →
      i ∈ [.setrun p, .setbay p, .setbayTruncate p, .setzone p, .setcar p, .setcarConfiguredNo p] →
      exec i s = .next (s.answer p f rest s.records { status := .locked, body := [] })) ∧
    (p = .openPort →
      i ∈ [.service p, .ceiling p, .lock p, .unlock p, .setwind p, .cond p, .mask p, .maint p, .endmaint p, .restore p,
        .restart p] →
      exec i s = .next (s.answer p f rest s.records { status := .portDenied, body := [] }))

/-- `setrun` makes a run undefined with its power-on fields, or defined with the fields carried and the bays it had.
`setzone` makes a zone undefined with parent and overrides none, or writes the parent and overrides carried; the holder is
not written. A field out of its range is refused BAD_FORM. -/
def Obligations.SetrunAndSetzoneWrite : Prop :=
  (∀ (p : Port) (f : Frame) (rest : List Frame) (s : State) (q : SetRunBody),
    Offered s (.setrun p) p f rest → decodeSetRun f.body = some q → s.records.world.map.locked = false →
    (7 < q.run ∨ 1 < q.defined ∨ 5000 < q.clearance ∨
      (q.defined = 1 ∧ (q.closeDir < 1 ∨ 2 < q.closeDir ∨ q.exposure < 1 ∨ 2 < q.exposure))) →
    exec (.setrun p) s = .next (s.answer p f rest s.records { status := .badForm, body := [] })) ∧
  (∀ (p : Port) (f : Frame) (rest : List Frame) (s : State) (q : SetZoneBody),
    Offered s (.setzone p) p f rest → decodeSetZone f.body = some q → s.records.world.map.locked = false →
    (31 < q.zone ∨ 1 < q.defined ∨ (31 < q.parent ∧ q.parent ≠ 0xFF) ∨ (1000 < q.ceiling ∧ q.ceiling ≠ 0xFFFF) ∨
      1 < q.overriding ∨
      (q.overriding = 1 ∧ ∃ x ∈ [q.auto, q.operator, q.maintenance, q.emergency], x < 1 ∨ 3 < x)) →
    exec (.setzone p) s = .next (s.answer p f rest s.records { status := .badForm, body := [] })) ∧
  (∀ (p : Port) (f : Frame) (rest : List Frame) (s : State) (q : SetRunBody) (i : RunId),
    Offered s (.setrun p) p f rest → decodeSetRun f.body = some q → q.run = i.val → q.clearance ≤ 5000 →
    s.records.world.map.locked = false →
    (q.defined = 0 → exec (.setrun p) s = .next (s.answer p f rest
      (s.records.withMap { s.records.world.map with
        runs := s.records.world.map.runs.set i
          { defined := false, bays := [], closeDir := .up, exposed := false, clearance := 0 } })
      { status := .done, body := [] })) ∧
    ∀ (d : Dir) (e : Bool), q.defined = 1 → q.closeDir = d.code → q.exposure = (if e then 1 else 2) →
      exec (.setrun p) s = .next (s.answer p f rest
        (s.records.withMap { s.records.world.map with
          runs := s.records.world.map.runs.set i
            { defined := true
              bays := if (s.records.world.map.runs[i]).defined then (s.records.world.map.runs[i]).bays else []
              closeDir := d, exposed := e, clearance := q.clearance } })
        { status := .done, body := [] })) ∧
  ∀ (p : Port) (f : Frame) (rest : List Frame) (s : State) (q : SetZoneBody) (z : ZoneId) (parent : Option ZoneId)
      (access : Option AccessSet) (ceiling : Option Nat),
    Offered s (.setzone p) p f rest → decodeSetZone f.body = some q → q.zone = z.val →
    s.records.world.map.locked = false → q.parent = (parent.map Fin.val).getD 0xFF →
    q.ceiling = ceiling.getD 0xFFFF → (∀ x, ceiling = some x → x ≤ 1000) →
    (match access with
     | some a => q.overriding = 1 ∧ q.auto = a.auto.code ∧ q.operator = a.operator.code ∧
         q.maintenance = a.maintenance.code ∧ q.emergency = a.emergency.code
     | none => q.overriding = 0) →
    (q.defined = 0 → exec (.setzone p) s = .next (s.answer p f rest
      (s.records.withMap { s.records.world.map with
        zones := s.records.world.map.zones.set z
          { defined := false, parent := none, access := none, ceiling := none } }) { status := .done, body := [] })) ∧
    (q.defined = 1 → exec (.setzone p) s = .next (s.answer p f rest
      (s.records.withMap { s.records.world.map with
        zones := s.records.world.map.zones.set z
          { defined := true, parent := parent, access := access, ceiling := ceiling } })
      { status := .done, body := [] }))

/-- `setbay` with kind PLAIN or CELLED writes the bay carried, both marks clear, over bay b or behind the last one; with
kind TRUNCATE it removes bay b and every bay after it. A field out of its range is refused BAD_FORM, then an undefined run
BAD_STATE and a bay number too high BAD_TARGET. -/
def Obligations.SetbayWritesBay : Prop :=
  (∀ (p : Port) (f : Frame) (rest : List Frame) (s : State) (q : SetBayBody),
    decodeSetBay f.body = some q → s.records.world.map.locked = false →
    let refused := s.answer p f rest s.records { status := .badForm, body := [] }
    let inRange := (q.kind = 1 ∧ 200 ≤ q.length) ∨
      (q.kind = 2 ∧ 100 ≤ q.length ∧ q.length ≤ 4095 ∧ 2 ≤ q.count ∧ q.count ≤ 32)
    (Offered s (.setbay p) p f rest →
      (7 < q.run ∨ 47 < q.bay ∨ ¬inRange ∨ 1000 < q.ceiling ∨
        (∃ x ∈ [q.auto, q.operator, q.maintenance, q.emergency], x < 1 ∨ 3 < x) ∨ 1 < q.inService ∨
        1 < q.entryCheck ∨ (15 < q.condition ∧ q.condition ≠ 0xFF) ∨ (31 < q.zone ∧ q.zone ≠ 0xFF)) →
      exec (.setbay p) s = .next refused) ∧
    (Offered s (.setbayTruncate p) p f rest → (7 < q.run ∨ 47 < q.bay) →
      exec (.setbayTruncate p) s = .next refused)) ∧
  ∀ (p : Port) (f : Frame) (rest : List Frame) (s : State) (q : SetBayBody) (i : RunId),
    decodeSetBay f.body = some q → q.run = i.val → q.bay ≤ 47 → s.records.world.map.locked = false →
    let run := s.records.world.map.runs[i]
    let written := fun bays : List Bay => s.answer p f rest
      (s.records.withMap { s.records.world.map with
        runs := s.records.world.map.runs.set i { run with bays := bays } }) { status := .done, body := [] }
    let refused := fun st : Status => s.answer p f rest s.records { status := st, body := [] }
    (∀ (shape : BayShape) (access : AccessSet) (inService entryCheck : Bool) (condition : Option CondId)
        (zone : Option ZoneId), Offered s (.setbay p) p f rest →
      ((q.kind = 1 ∧ 200 ≤ q.length ∧ shape = .plain q.length) ∨
        (q.kind = 2 ∧ 100 ≤ q.length ∧ q.length ≤ 4095 ∧ 2 ≤ q.count ∧ q.count ≤ 32 ∧
          shape = .celled q.length q.count)) →
      q.auto = access.auto.code → q.operator = access.operator.code → q.maintenance = access.maintenance.code →
      q.emergency = access.emergency.code → q.inService = (if inService then 1 else 0) →
      q.entryCheck = (if entryCheck then 1 else 0) → q.condition = (condition.map Fin.val).getD 0xFF →
      q.zone = (zone.map Fin.val).getD 0xFF → q.ceiling ≤ 1000 →
      let bay : Bay := { shape := shape, ceiling := q.ceiling, access := access, inService := inService,
                         entryCheck := entryCheck, condition := condition, zone := zone, traversed := false,
                         stoppedIn := false }
      (run.defined = false → exec (.setbay p) s = .next (refused .badState)) ∧
      (run.defined = true → run.bays.length < q.bay → exec (.setbay p) s = .next (refused .badTarget)) ∧
      (run.defined = true → q.bay < run.bays.length →
        exec (.setbay p) s = .next (written (run.bays.set q.bay bay))) ∧
      (run.defined = true → q.bay = run.bays.length → exec (.setbay p) s = .next (written (run.bays ++ [bay])))) ∧
    (Offered s (.setbayTruncate p) p f rest →
      (run.defined = false → exec (.setbayTruncate p) s = .next (refused .badState)) ∧
      (run.defined = true → run.bays.length ≤ q.bay → exec (.setbayTruncate p) s = .next (refused .badTarget)) ∧
      (run.defined = true → q.bay < run.bays.length →
        exec (.setbayTruncate p) s = .next (written (run.bays.take q.bay))))

/-- `service` writes a bay's in service field; only taking a bay out on a LOCKED map hands over a cut to unit demand.
`ceiling` writes a bay's ceiling; on a LOCKED map a change computes afresh the ceiling of every live warrant whose span
touches the bay. A field out of its range is refused BAD_FORM, and then a bay that is not there IN_USE. What the cut to
unit does is said in ConditionChangesAct. The units of a ceiling computed afresh, from the leading unit to the limit
unit in either order and with an end off the run taken as its end unit, are as notes/assumptions/12.md reads R75, and
that a SUSPENDED warrant's are its whole span in a run-out too is as 11. -/
def Obligations.ServiceAndCeilingWriteBay : Prop :=
  (∀ (f : Frame) (rest : List Frame) (s : State),
    let refused := s.answer .assured f rest s.records { status := .badForm, body := [] }
    (∀ q : TripleBody, Offered s (.service .assured) .assured f rest → decodeTriple f.body = some q →
      (7 < q.fst ∨ 47 < q.snd ∨ 1 < q.thd) → exec (.service .assured) s = .next refused) ∧
    (∀ q : CeilingBody, Offered s (.ceiling .assured) .assured f rest → decodeCeiling f.body = some q →
      (7 < q.run ∨ 47 < q.bay ∨ 1000 < q.ceiling) → exec (.ceiling .assured) s = .next refused)) ∧
  ∀ (f : Frame) (rest : List Frame) (s : State) (i : RunId) (b : Nat), b ≤ 47 →
    let r := s.records
    let run := r.world.map.runs[i]
    let withBays := fun bays : List Bay =>
      r.withMap { r.world.map with runs := r.world.map.runs.set i { run with bays := bays } }
    (∀ (q : TripleBody) (v : Bool), Offered s (.service .assured) .assured f rest → decodeTriple f.body = some q →
      q.fst = i.val → q.snd = b → q.thd = (if v then 1 else 0) →
      let r1 := withBays (run.bays.modify b (fun bay => { bay with inService := v }))
      ((run.defined = false ∨ run.bays.length ≤ b) → exec (.service .assured) s =
        .next (s.answer .assured f rest r { status := .inUse, body := [] })) ∧
      ∀ bay, run.defined = true → run.bays[b]? = some bay →
        ((r.world.map.locked = false ∨ bay.inService = false ∨ v = true) → exec (.service .assured) s =
          .next (s.answer .assured f rest r1 { status := .done, body := [] })) ∧
        (r.world.map.locked = true → bay.inService = true → v = false → exec (.service .assured) s =
          .next (s.answer .assured f rest (r1.withFleet (cutToUnit r1.world (serviceDemand i b) r.fleet))
            { status := .done, body := [] }))) ∧
    (∀ q : CeilingBody, Offered s (.ceiling .assured) .assured f rest → decodeCeiling f.body = some q →
      q.run = i.val → q.bay = b → q.ceiling ≤ 1000 →
      let r1 := withBays (run.bays.modify b (fun bay => { bay with ceiling := q.ceiling }))
      ((run.defined = false ∨ run.bays.length ≤ b) → exec (.ceiling .assured) s =
        .next (s.answer .assured f rest r { status := .inUse, body := [] })) ∧
      ∀ bay, run.defined = true → run.bays[b]? = some bay →
        ((r.world.map.locked = false ∨ bay.ceiling = q.ceiling) → exec (.ceiling .assured) s =
          .next (s.answer .assured f rest r1 { status := .done, body := [] })) ∧
        (r.world.map.locked = true → bay.ceiling ≠ q.ceiling →
          exec (.ceiling .assured) s = .next (s.answer .assured f rest
            (r1.withFleet { r.fleet with
              slots := r.fleet.slots.map (fun slot => { slot with
                warrant := slot.warrant.map (fun w =>
                  if (r.fleet.cars[w.carriage]).cfg.run = i ∧ ∃ u ∈ spanUnits r1.world r.fleet w, u.bay = b then
                    { w with ceiling := fullCeiling r1.world r.fleet w }
                  else w) }) })
            { status := .done, body := [] })))

/-- `lock` on an UNLOCKED map whose checks pass locks it, gives each zone to the carriage whose present extent reaches
it, and with the ESTOP line asserted adds ESTOP to every configured carriage; a failed check is answered MAP_FAULT with
its code and items; on a LOCKED map nothing changes. That codes 3 and 6 carry a second item as code 9 does is the model's
reading (notes/assumptions/42.md, 43.md). -/
def Obligations.LockValidatesAndLocks : Prop :=
  ∀ (f : Frame) (rest : List Frame) (s : State), Offered s (.lock .assured) .assured f rest →
    let r := s.records
    (r.world.map.locked = true →
      exec (.lock .assured) s = .next (s.answer .assured f rest r { status := .done, body := [] })) ∧
    (∀ e, r.world.map.locked = false → lockFault r.world r.fleet = some e →
      exec (.lock .assured) s = .next (s.answer .assured f rest r
        { status := .mapFault, body := be 1 e.code ++ be 1 e.first ++ be 1 (e.second.getD 0xFF) })) ∧
    (r.world.map.locked = false → lockFault r.world r.fleet = none →
      ∃ G, exec (.lock .assured) s = .next (s.answer .assured f rest
          ((r.withMap { r.world.map with locked := true }).withFleet G) { status := .done, body := [] }) ∧
        G.slots = r.fleet.slots ∧ G.occupancy = r.fleet.occupancy ∧ G.notices = r.fleet.notices ∧
        (∀ (z : ZoneId) (c : CarId), G.holders[z] = some c ↔
          ((r.fleet.cars[c]).configured = true ∧ z ∈ extentZones r.world r.fleet c)) ∧
        ∀ c : CarId, G.cars[c] =
          if r.world.estopLine = true ∧ (r.fleet.cars[c]).configured = true then
            { r.fleet.cars[c] with holds := (r.fleet.cars[c]).holds.add .estop }
          else r.fleet.cars[c])

/-- A map passes `lock` exactly when it has no empty or over-long run, no chain beyond 4 zones, through an undefined
zone or back to itself, no bay in an undefined zone, every configured carriage's home extent on its defined run, and no
two configured carriages whose present extents conflict or share a zone. A map that fails is refused with the first
failing item of the first failing check: the checks in the order of their codes, with 3, 4 and 5 as one walk up each
zone's chain that stops at the first parent undefined, already met, or fifth; each over its items in ascending number.
The second item of codes 3 and 6 is as notes/assumptions/42.md and 43.md read R19. -/
def Obligations.LockedMapIsSound : Prop :=
  (∀ (W : World) (F : Fleet), lockFault W F = none ↔
    (∀ i : RunId, (W.map.runs[i]).defined = true → (W.map.runs[i]).bays ≠ [] ∧ (W.map.runs[i]).length ≤ 1048576) ∧
    (∀ z : ZoneId, (W.map.zones[z]).defined = true →
      (chainFrom W.map.zones 5 (some z)).length ≤ 4 ∧ (chainFrom W.map.zones 5 (some z)).Nodup ∧
      ∀ y ∈ chainFrom W.map.zones 5 (some z), (W.map.zones[y]).defined = true) ∧
    (∀ (i : RunId) (bay : Bay) (z : ZoneId), (W.map.runs[i]).defined = true → bay ∈ (W.map.runs[i]).bays →
      bay.zone = some z → (W.map.zones[z]).defined = true) ∧
    (∀ c : CarId, (F.cars[c]).configured = true → (runOf W F c).defined = true ∧
      0 ≤ (F.cars[c]).cfg.homeReference - (F.cars[c]).cfg.lowerReach ∧
      (F.cars[c]).cfg.homeReference + (F.cars[c]).cfg.upperReach ≤ (runOf W F c).last) ∧
    ∀ c d : CarId, c ≠ d → (F.cars[c]).configured = true → (F.cars[d]).configured = true →
      ((F.cars[c]).cfg.run = (F.cars[d]).cfg.run →
        ∀ u ∈ occupied W F c, ∀ v ∈ occupied W F d, unitsConflict (runOf W F c).clearance u v = false) ∧
      ∀ z ∈ extentZones W F c, z ∉ extentZones W F d) ∧
  ∀ (W : World) (F : Fleet) (e : MapFault), lockFault W F = some e →
    let chain := fun z : ZoneId => chainFrom W.map.zones 5 (some z)
    let sound := fun zs : List ZoneId => zs.Nodup ∧ ∀ y ∈ zs, (W.map.zones[y]).defined = true
    -- the fault `x` stands on the map: its code's row of R19, with its items
    let stands := fun x : MapFault => match x.code with
      | 1 => ∃ i : RunId, x.first = i.val ∧ x.second = none ∧ (W.map.runs[i]).defined = true ∧ (W.map.runs[i]).bays = []
      | 2 => ∃ i : RunId, x.first = i.val ∧ x.second = none ∧ (W.map.runs[i]).defined = true ∧
          1048576 < (W.map.runs[i]).length
      | 3 => ∃ (z y up : ZoneId) (j : Nat), x.first = z.val ∧ x.second = some y.val ∧ (chain z)[j]? = some y ∧
          (chain z)[j + 1]? = some up ∧ (W.map.zones[up]).defined = false ∧ sound ((chain z).take (j + 1))
      | 4 => ∃ z : ZoneId, x.first = z.val ∧ x.second = none ∧ (chain z).length = 5 ∧ sound (chain z)
      | 5 => ∃ (z up : ZoneId) (j : Nat), x.first = z.val ∧ x.second = none ∧ (chain z)[j + 1]? = some up ∧
          up ∈ (chain z).take (j + 1) ∧ sound ((chain z).take (j + 1))
      | 6 => ∃ (i : RunId) (b : Nat) (bay : Bay) (z : ZoneId), x.first = i.val ∧ x.second = some b ∧
          (W.map.runs[i]).defined = true ∧ (W.map.runs[i]).bays[b]? = some bay ∧ bay.zone = some z ∧
          (W.map.zones[z]).defined = false
      | 7 => ∃ c : CarId, x.first = c.val ∧ x.second = none ∧ (F.cars[c]).configured = true ∧
          (runOf W F c).defined = false
      | 8 => ∃ c : CarId, x.first = c.val ∧ x.second = none ∧ (F.cars[c]).configured = true ∧
          ((F.cars[c]).cfg.homeReference - (F.cars[c]).cfg.lowerReach < 0 ∨
            (runOf W F c).last < (F.cars[c]).cfg.homeReference + (F.cars[c]).cfg.upperReach)
      | 9 => ∃ c d : CarId, x.first = c.val ∧ x.second = some d.val ∧ c < d ∧ (F.cars[c]).configured = true ∧
          (F.cars[d]).configured = true ∧
          (((F.cars[c]).cfg.run = (F.cars[d]).cfg.run ∧
              ∃ u ∈ occupied W F c, ∃ v ∈ occupied W F d, unitsConflict (runOf W F c).clearance u v = true) ∨
            ∃ z ∈ extentZones W F c, z ∈ extentZones W F d)
      | _ => False
    let check := fun x : MapFault => if x.code = 4 ∨ x.code = 5 then 3 else x.code
    stands e ∧ ∀ x, stands x → x = e ∨ check e < check x ∨ (check e = check x ∧
      (e.first < x.first ∨ (e.first = x.first ∧ e.second.getD 0 < x.second.getD 0)))

/-- `unlock` is refused BUSY while any warrant is live; otherwise the map is UNLOCKED and, from LOCKED, every zone holder
is none. Nothing else changes. -/
def Obligations.UnlockNeedsNoLiveWarrant : Prop :=
  ∀ (f : Frame) (rest : List Frame) (s : State), Offered s (.unlock .assured) .assured f rest →
    let r := s.records
    ((∃ i : SlotId, (r.fleet.slots[i]).warrant ≠ none) →
      exec (.unlock .assured) s = .next (s.answer .assured f rest r { status := .busy, body := [] })) ∧
    ((∀ i : SlotId, (r.fleet.slots[i]).warrant = none) → r.world.map.locked = true →
      exec (.unlock .assured) s = .next (s.answer .assured f rest
        ((r.withMap { r.world.map with locked := false }).withFleet
          { r.fleet with holders := Vector.replicate 32 none }) { status := .done, body := [] })) ∧
    ((∀ i : SlotId, (r.fleet.slots[i]).warrant = none) → r.world.map.locked = false →
      exec (.unlock .assured) s = .next (s.answer .assured f rest r { status := .done, body := [] }))

/-- `marks` answers each bay's two marks from bay 0 upward, an empty list for an undefined run or one with no bays; TAKE
then clears every mark of the run and READ leaves them. A run number beyond 7 or another mode is refused BAD_FORM. It is
taken on either port and in either lock state. -/
def Obligations.MarksReadAndTake : Prop :=
  ∀ (p : Port) (f : Frame) (rest : List Frame) (s : State) (q : PairBody), Offered s (.marks p) p f rest →
    decodePair f.body = some q →
    ((7 < q.fst ∨ 1 < q.snd) →
      exec (.marks p) s = .next (s.answer p f rest s.records { status := .badForm, body := [] })) ∧
    ∀ i : RunId, q.fst = i.val →
      let run := s.records.world.map.runs[i]
      let marks : List Byte := if run.defined then
          run.bays.flatMap (fun b => [if b.traversed then 1 else 0, if b.stoppedIn then 1 else 0])
        else []
      (q.snd = 0 → exec (.marks p) s = .next (s.answer p f rest s.records { status := .done, body := marks })) ∧
      (q.snd = 1 → exec (.marks p) s = .next (s.answer p f rest
        (s.records.withMap { s.records.world.map with
          runs := s.records.world.map.runs.set i
            { run with bays := run.bays.map (fun b => { b with traversed := false, stoppedIn := false }) } })
        { status := .done, body := marks }))

/-! ## Carriages -/

/-- An accepted `setcar` with configured yes writes the configuration, puts the carriage OFFLINE in its home extent, and
sets the living part of its record as R27 gives. A carriage, run or configured field out of its range and every other
field out of its range are refused BAD_FORM, and then a TRIPPED carriage BAD_STATE. With configured no the record takes
its power-on values. No other record changes. -/
def Obligations.SetcarConfigures : Prop :=
  (∀ (p : Port) (f : Frame) (rest : List Frame) (s : State), s.records.world.map.locked = false →
    let refused := s.answer p f rest s.records { status := .badForm, body := [] }
    (∀ q : SetCarBody, Offered s (.setcar p) p f rest → decodeSetCar f.body = some q →
      (15 < q.carriage ∨ q.configured ≠ 1 ∨ 7 < q.run ∨ q.offsets.length < 1 ∨ 8 < q.offsets.length ∨
        q.maxSpeed < 1 ∨ 1000 < q.maxSpeed ∨ q.creepSpeed < 1 ∨ 200 < q.creepSpeed ∨ q.maxSpeed < q.creepSpeed ∨
        q.deceleration < 10 ∨ 2000 < q.deceleration ∨ 2000 < q.reactionTime ∨ 500 < q.skewLimit ∨
        q.reportInterval < 50 ∨ 5000 < q.reportInterval ∨ 5000 < q.warningLead ∨ 500 < q.stopWindow ∨
        q.threshold < 2 ∨ 5 < q.threshold ∨ 1048575 < q.homeReference) →
      exec (.setcar p) s = .next refused) ∧
    (Offered s (.setcarConfiguredNo p) p f rest → 15 < field f.body 0 1 →
      exec (.setcarConfiguredNo p) s = .next refused)) ∧
  ∀ (p : Port) (f : Frame) (rest : List Frame) (s : State) (c : CarId), s.records.world.map.locked = false →
    let F := s.records.fleet
    let old := F.cars[c]
    (∀ (q : SetCarBody) (run : RunId), Offered s (.setcar p) p f rest → decodeSetCar f.body = some q →
      q.carriage = c.val → q.run = run.val → q.configured = 1 →
      (setCarInRange q = false →
        exec (.setcar p) s = .next (s.answer p f rest s.records { status := .badForm, body := [] })) ∧
      (setCarInRange q = true → old.state = .tripped →
        exec (.setcar p) s = .next (s.answer p f rest s.records { status := .badState, body := [] })) ∧
      (setCarInRange q = true → old.state ≠ .tripped → exec (.setcar p) s = .next (s.answer p f rest
        (s.records.withFleet { F with
          cars := F.cars.set c
            { cfg := { run := run, offsets := q.offsets, lowerReach := q.lowerReach, upperReach := q.upperReach,
                       maxSpeed := q.maxSpeed, creepSpeed := q.creepSpeed, deceleration := q.deceleration,
                       reactionTime := q.reactionTime, skewLimit := q.skewLimit,
                       reportInterval := q.reportInterval, warningLead := q.warningLead,
                       stopWindow := q.stopWindow, threshold := q.threshold, homeReference := q.homeReference }
              state := .offline, mute := false, last := none
              pose := some { reference := q.homeReference, skew := 0, lower := q.homeReference - q.lowerReach,
                             upper := q.homeReference + q.upperReach }
              front := none, trip := none, tripCount := 0
              level := if old.state = .unconfigured then 0 else old.level
              holds := if old.state = .unconfigured then HoldSet.empty else (old.holds.remove .mute).remove .reversal
              current := none, stack := []
              lastRetire := if old.state = .unconfigured then none else old.lastRetire } })
        { status := .done, body := [] }))) ∧
    (Offered s (.setcarConfiguredNo p) p f rest → field f.body 0 1 = c.val →
      exec (.setcarConfiguredNo p) s = .next (s.answer p f rest
        (s.records.withFleet { F with cars := F.cars.set c State.reset.records.fleet.cars[c] })
        { status := .done, body := [] }))

/-- A report that is not acceptable, a carriage number beyond 15 among the grounds, is refused BAD_FORM and changes
nothing. An accepted one records its positions, its clamped speed and its tick, the pose, front and state they give; it
sets the marks of the bays its present extent touches, recomputes the zones, ends mute and answers DONE or CLAMPED with
the carriage's state, trip kind, hold set and current warrant. The first of SKEW, OFF_RUN, INTRUSION and the envelope
checks that fails trips. A report that passes raises WARNING once when the front is within the warning lead; its current
warrant, when marked, retires at standstill; else, out of a run-out, it is activated (but after a trip REVERSE, by R58:
notes/assumptions/48.md), has its rear drawn up, and completes at standstill within the stop window. In a run-out it
stays as it is (notes/assumptions/22.md). A standstill report ends a run-out: a marked current warrant retires, then a
marked top one, REVERSAL goes, the current one is recomputed, and with none a resumption is attempted. Every other
carriage's record, warrants and zones are kept. What a trip leaves at standstill for a warrant that carries a reason, in
a run-out for the top warrant, and at the threshold is as logs 8, 9 and 31 read it, the front after a retirement in a
run-out as log 10, and limits and ceilings as 11, 12, 21 and 40. -/
def Obligations.ReportRecordsReadings : Prop :=
  (∀ (p : Port) (f : Frame) (rest : List Frame) (s : State) (q : ReportBody),
    Offered s (.report p) p f rest → decodeReport f.body = some q → 15 < q.carriage →
    exec (.report p) s = .next (s.answer p f rest s.records { status := .badForm, body := [] })) ∧
  ∀ (p : Port) (f : Frame) (rest : List Frame) (s : State) (q : ReportBody) (c : CarId),
    Offered s (.report p) p f rest → decodeReport f.body = some q → q.carriage = c.val →
    let W := s.records.world
    let F := s.records.fleet
    let k := F.cars[c]
    let run := W.map.runs[k.cfg.run]
    let speed := max (-2000) (min 2000 q.speed)
    let v := speed.natAbs
    let pz := poseOf k.cfg q.positions
    ((k.state = .unconfigured ∨ q.positions.length ≠ k.cfg.offsets.length ∨ ∃ x ∈ q.positions, 1048575 < x) →
      exec (.report p) s = .next (s.answer p f rest s.records { status := .badForm, body := [] })) ∧
    (k.state ≠ .unconfigured → q.positions.length = k.cfg.offsets.length → (∀ x ∈ q.positions, x ≤ 1048575) →
      F.Book → ∃ (bays : List Bay) (H G : Fleet),
      let W' : World := { W with map := { W.map with runs := W.map.runs.set k.cfg.run { run with bays := bays } } }
      let k' := G.cars[c]
      -- the record as stages 1 to 4 leave it, and the first check that fails
      let side : Option Dir := match F.supervising c with
        | some (_, w) => some w.dir
        | none => if v ≤ 5 then none else if 0 < speed then some .up else some .down
      let F1 : Fleet := { F with cars := F.cars.set c { k with
        last := some { positions := q.positions, speed := speed, tick := W.now }, pose := some pz
        state := if k.state = .tripped then .tripped else if v ≤ 5 then .standing else .moving
        front := frontAt k.cfg pz v side } }
      let intrudes : Bool := (occupied W F1 c).any (fun u =>
        (othersClaims W F1 c).any (fun x => unitsConflict run.clearance u x) ||
          (run.bay u.bay).any (fun b => (W.map.chain b).any (fun z =>
            decide (F.holders[z] ≠ none ∧ F.holders[z] ≠ some c))))
      let check : Option TripKind :=
        if k.cfg.skewLimit < pz.skew then some .skew
        else if pz.lower < 0 ∨ run.last < pz.upper then some .offRun
        else if intrudes then some .intrusion
        else envelopeCheck W F1 c speed
      -- the record after the WARNING check
      let near := fun w : Warrant => match w.dir, (F1.cars[c]).front with
        | .up, some x => decide (w.confirm.getD w.limit - k.cfg.warningLead < x)
        | .down, some x => decide (x < w.confirm.getD w.limit + k.cfg.warningLead)
        | _, none => false
      let F2 : Fleet := match F.supervising c with
        | some (j, w) =>
          if near w && !w.warned then
            ({ F1 with slots := F1.slots.set j { F1.slots[j] with warrant := some { w with warned := true } } } :
              Fleet).raise { carriage := some c, handle := some (F.handleOf j), value := .warning (w.confirm.getD w.limit) }
          else F1
        | none => F1
      exec (.report p) s = .next (s.answer p f rest
        ((s.records.withMap { W.map with runs := W.map.runs.set k.cfg.run { run with bays := bays } }).withFleet G)
        { status := if speed = q.speed then .done else .clamped
          body := be 1 k'.state.code ++ be 1 (codeOr0 TripKind.code (k'.trip.map TripRecord.kind)) ++
            be 1 (if k'.holds.isEmpty then 1 else 0) ++ handleBytes k'.current }) ∧
      -- the end of mute comes last: `H` stands before it
      G = (let M : Fleet := { H with cars := H.cars.set c { H.cars[c] with mute := false } }
           if k.mute = true then causeLifted W' M c .mute else H) ∧
      k'.cfg = k.cfg ∧ k'.last = some { positions := q.positions, speed := speed, tick := W.now } ∧
      k'.pose = some pz ∧ k'.mute = false ∧ (k.mute = true → k'.holds.mute = false) ∧
      (k.state = .tripped → k'.state = .tripped) ∧
      (k'.state = .tripped ∨ k'.state = if v ≤ 5 then .standing else .moving) ∧
      (k.state ≠ .tripped → k.cfg.skewLimit < pz.skew →
        k'.trip = some { kind := .skew, tick := W.now, further := 0 }) ∧
      (k.state ≠ .tripped → pz.skew ≤ k.cfg.skewLimit → (pz.lower < 0 ∨ run.last < pz.upper) →
        k'.trip = some { kind := .offRun, tick := W.now, further := 0 }) ∧
      bays.length = run.bays.length ∧
      (∀ (b : Nat) (bay : Bay), run.bays[b]? = some bay → bays[b]? = some
        (if b ∈ (occupied W G c).map TrackUnit.bay then
          { bay with traversed := true, stoppedIn := bay.stoppedIn || decide (v ≤ 5) }
        else bay)) ∧
      F.sameCarsBut G c ∧ Rezoned W F G c ∧
      (∀ i : SlotId, (∀ w, (F.slots[i]).warrant = some w → w.carriage ≠ c) → G.slots[i] = F.slots[i]) ∧
      (∀ r : RunId, r ≠ k.cfg.run → G.occupancy[r] = F.occupancy[r]) ∧
      -- a failed check trips
      (∀ kind, check = some kind → TripActs W F1 c kind v true H) ∧
      -- a passing report, with no current warrant
      (check = none → F.currentOf c = none → (k.holds.reversal = false ∨ 5 < v) →
        H.slots = F2.slots ∧ H.cars = F2.cars ∧ H.occupancy = F.occupancy ∧ H.notices = F2.notices) ∧
      -- a passing report, with a current warrant and out of a run-out
      (check = none → k.holds.reversal = false → ∀ (i : SlotId) (w : Warrant), F2.currentOf c = some (i, w) →
        (∀ reason, w.retireOnStop = some reason → v ≤ 5 → RetiredWhole W' F2 i w reason H) ∧
        ((w.retireOnStop = none ∨ 5 < v) →
          let along := match w.dir with
            | .up => decide (5 < speed)
            | .down => decide (speed < -5)
          let starts : Bool := decide (w.state = .granted) && along &&
            decide (k.trip.map TripRecord.kind ≠ some .reverse)
          let drawn : Bool := beyond w.dir (rearFor W F1 c w.dir) w.rear
          let w' := { w with
            state := if starts then .active else w.state, expiry := if starts then none else w.expiry
            rear := if drawn then rearFor W F1 c w.dir else w.rear }
          let left : Int := match w.dir with
            | .up => w.limit - pz.upper
            | .down => pz.lower - w.limit
          let done := w'.state = .active ∧ w.retireOnStop = none ∧ w.confirm = none ∧ v ≤ 5 ∧ left ≤ k.cfg.stopWindow
          (done →
            RetiredWhole W' (({ F2 with cars := F2.cars.set c { F2.cars[c] with tripCount := 0 } } : Fleet).raise
              { carriage := some c, handle := some (F.handleOf i), value := .complete w.limit }) i w' .complete H) ∧
          (¬done →
            H.slots[i] = { F.slots[i] with warrant := some w' } ∧ F2.sameSlotsBut H i ∧ H.cars = F2.cars ∧
              H.occupancy[k.cfg.run] = (if drawn then insertEntry (entryOf run (F.handleOf i) w')
                  ((F.occupancy[k.cfg.run]).filter (fun e => e.handle.slot != i))
                else F.occupancy[k.cfg.run]) ∧
              H.notices = F2.notices))) ∧
      -- a report in a run-out
      (check = none → k.holds.reversal = true → 5 < v →
        H.slots = F2.slots ∧ H.cars = F2.cars ∧ H.occupancy = F.occupancy ∧ H.notices = F2.notices) ∧
      -- the standstill report that ends it: a marked current warrant retires first, and the end follows
      (check = none → k.holds.reversal = true → v ≤ 5 → ∃ Z P : Fleet,
        Z.cars = F2.cars ∧ Z.slots = F2.slots ∧ Z.occupancy = F2.occupancy ∧ Z.notices = F2.notices ∧
        Rezoned W' F2 Z c ∧ RunOutEnds W' P c H ∧
        (F2.currentOf c = none → P = Z) ∧
        ∀ (i : SlotId) (w : Warrant), F2.currentOf c = some (i, w) →
          (∀ reason, w.retireOnStop = some reason → RetiredWhole W' Z i w reason P) ∧
          (w.retireOnStop = none → w.state = .granted → P = Z)) ∧
      (k.holds.reversal = true → v ≤ 5 → (H.cars[c]).holds.reversal = false ∧
        (∀ (j : SlotId) (w : Warrant), F.topOf c = some (j, w) → (w.retireOnStop ≠ none ∨ check ≠ none) →
          H.slots[j] = { F.slots[j] with warrant := none }) ∧
        (check = none → ∀ (i : SlotId) (w : Warrant), F2.currentOf c = some (i, w) → w.state = .granted →
          w.retireOnStop = none →
          (H.slots[i]).warrant = some { w with ceiling := fullCeiling W F1 w } ∧
            (H.cars[c]).current = k.current ∧ (H.cars[c]).front = frontAt k.cfg pz v (some w.dir) ∧
            ∀ (j : SlotId) (top : Warrant), F2.topOf c = some (j, top) → top.retireOnStop = none →
              H.slots[j] = F2.slots[j])))

/-- A due mute expiry sets the mute flag, adds MUTE and raises the MUTE notice, and changes nothing else. A due warrant
expiry raises EXPIRED and retires the GRANTED warrant with reason EXPIRED; the retirement of a current warrant then
attempts a resumption, and that of a MAINTENANCE warrant removes KEY_LOST. The front after a retirement in a run-out is as
notes/assumptions/10.md reads R47. -/
def Obligations.ExpiriesTakeEffect : Prop :=
  (∀ (s : State) (c : CarId) (l : LastReport), s.resetLine = false →
    let F := s.records.fleet
    let k := F.cars[c]
    (k.state = .standing ∨ k.state = .moving ∨ k.state = .tripped) → k.mute = false → k.last = some l →
    (k.cfg.reportInterval : Int) ≤ sinceTick s.records.world.now l.tick →
    exec (.muteExpiry c) s = .next ({ s with
      records := s.records.withFleet
        (({ F with cars := F.cars.set c { k with mute := true, holds := k.holds.add .mute } } : Fleet).raise
          { carriage := some c, handle := k.current, value := .mute l.tick }) } : State).drive) ∧
  ∀ (s : State) (i : SlotId) (w : Warrant) (t : Tick), s.resetLine = false →
    let W := s.records.world
    let F := s.records.fleet
    let c := w.carriage
    (F.slots[i]).warrant = some w → w.state = .granted → w.expiry = some t → 0 ≤ sinceTick W.now t →
    ∃ G, RetiredWhole W (F.raise { carriage := some c, handle := some (F.handleOf i), value := .expired t }) i w
        .expired G ∧
      exec (.warrantExpiry i) s = .next ({ s with records := s.records.withFleet G } : State).drive

/-! ## Warrants -/

/-- An `ask` that meets no refusal, for a carriage with no current warrant, issues the lowest free slot under its next
generation to a GRANTED warrant with the walk's limit and confirm point, makes it current, enters it on the run's list,
and answers DONE or PARTIAL with its fields; every other slot, carriage, list and holding is kept. The units of its
ceiling and the start of its walk are as notes/assumptions/12.md and 13.md read R75 and R69. A confirm point of -1 is sent
as 45 codes it. -/
def Obligations.AskGrantsWarrant : Prop :=
  ∀ (p : Port) (f : Frame) (rest : List Frame) (s : State) (q : AskBody) (c : CarId) (k : Cls) (i : SlotId) (pz : Pose)
      (d : Dir), Offered s (.ask p) p f rest → decodeAsk f.body = some q → q.carriage = c.val → q.cls = k.code →
    q.target ≤ 1048575 → s.records.world.map.locked = true →
    let W := s.records.world
    let F := s.records.fleet
    let car := F.cars[c]
    let run := runOf W F c
    let target := min (q.target : Int) run.last
    let plan : WalkPlan := { car := c, cls := k, dir := d, base := pz.lead d, target := target, oldSpan := none,
                             ownSpan := none, met := none }
    let res := walk W F plan
    let life := if q.lifetime = 0 then 60000 else min q.lifetime 600000
    let ceiling := leastCeiling W F c k car.cfg.maxSpeed (run.between (pz.lead d) res.limit)
    let h : Handle := { slot := i, generation := (F.slots[i]).generation + 1 }
    let w : Warrant := { carriage := c, origin := originOf p f.station, cls := k, dir := d, target := target,
                         limit := res.limit, rear := rearFor W F c d, confirm := res.confirm, ceiling := ceiling,
                         state := .granted, expiry := some (W.now + BitVec.ofNat 32 life), lifetime := life,
                         retireOnStop := none, warned := false }
    (car.state = .standing ∨ car.state = .moving) → (k = .emergency → p = .assured) →
    (∀ x : Cause, x ≠ .trip → car.holds.has x = false) → F.currentOf c = none →
    (F.slots[i]).warrant = none → (∀ j : SlotId, j < i → (F.slots[j]).warrant ≠ none) → car.pose = some pz →
    ((d = .up ∧ pz.upper < target) ∨ (d = .down ∧ target ≤ pz.upper ∧ target < pz.lower)) → res.gains plan = true →
    ∃ G, exec (.ask p) s = .next (s.answer p f rest (s.records.withFleet G)
        { status := if res.blocker = none then .done else .partially
          body := handleBytes (some h) ++ be 3 res.limit.toNat ++ confirmBytes res.confirm ++ be 2 ceiling ++
            be 3 life ++ be 1 (if run.last < (q.target : Int) then 1 else 0) ++
            be 1 (codeOr0 Blocker.code res.blocker) }) ∧
      G.slots[i] = { generation := h.generation, warrant := some w } ∧ F.sameSlotsBut G i ∧
      G.cars[c] = { car with
        current := some h
        front := car.last.bind (fun l => frontAt car.cfg pz l.speed.natAbs (some d)) } ∧
      F.sameCarsBut G c ∧
      G.occupancy[car.cfg.run] = insertEntry (entryOf run h w)
        ((F.occupancy[car.cfg.run]).filter (fun e => e.handle.slot != i)) ∧
      (∀ r : RunId, r ≠ car.cfg.run → G.occupancy[r] = F.occupancy[r]) ∧ Rezoned W F G c ∧
      G.notices = F.notices

/-- An EMERGENCY `ask` on the Assured Port for a carriage whose current warrant is of a lower class, and which meets no
refusal, suspends that warrant onto the stack with every other field kept, issues the emergency warrant as current, and
begins a run-out exactly when the last report moves against the new direction; the front follows the supervising warrant.
The units of its ceiling and the start of its walk are as notes/assumptions/12.md and 13.md read R75 and R69. A confirm
point of -1 is sent as 45 codes it. -/
def Obligations.AskPreemptsWarrant : Prop :=
  ∀ (f : Frame) (rest : List Frame) (s : State) (q : AskBody) (c : CarId) (i j : SlotId) (old : Warrant) (pz : Pose)
      (d : Dir), Offered s (.ask .assured) .assured f rest → decodeAsk f.body = some q → q.carriage = c.val →
    q.cls = Cls.emergency.code → q.target ≤ 1048575 → s.records.world.map.locked = true →
    let W := s.records.world
    let F := s.records.fleet
    let car := F.cars[c]
    let run := runOf W F c
    let target := min (q.target : Int) run.last
    let plan : WalkPlan := { car := c, cls := .emergency, dir := d, base := pz.lead d, target := target,
                             oldSpan := none, ownSpan := none, met := none }
    let res := walk W F plan
    let life := if q.lifetime = 0 then 60000 else min q.lifetime 600000
    let ceiling := leastCeiling W F c .emergency car.cfg.maxSpeed (run.between (pz.lead d) res.limit)
    let h : Handle := { slot := i, generation := (F.slots[i]).generation + 1 }
    let w : Warrant := { carriage := c, origin := .assured, cls := .emergency, dir := d, target := target,
                         limit := res.limit, rear := rearFor W F c d, confirm := res.confirm, ceiling := ceiling,
                         state := .granted, expiry := some (W.now + BitVec.ofNat 32 life), lifetime := life,
                         retireOnStop := none, warned := false }
    let speed := (car.last.map LastReport.speed).getD 0
    let against : Bool := match d with
      | .up => decide (speed < -5)
      | .down => decide (5 < speed)
    (car.state = .standing ∨ car.state = .moving) → (∀ x : Cause, x ≠ .trip → car.holds.has x = false) →
    F.currentOf c = some (j, old) → old.cls ≠ .emergency → car.stack.length < 3 →
    (F.slots[i]).warrant = none → (∀ l : SlotId, l < i → (F.slots[l]).warrant ≠ none) → car.pose = some pz →
    ((d = .up ∧ pz.upper < target) ∨ (d = .down ∧ target ≤ pz.upper ∧ target < pz.lower)) → res.gains plan = true →
    ∃ G, exec (.ask .assured) s = .next (s.answer .assured f rest (s.records.withFleet G)
        { status := if res.blocker = none then .done else .partially
          body := handleBytes (some h) ++ be 3 res.limit.toNat ++ confirmBytes res.confirm ++ be 2 ceiling ++
            be 3 life ++ be 1 (if run.last < (q.target : Int) then 1 else 0) ++
            be 1 (codeOr0 Blocker.code res.blocker) }) ∧
      G.slots[i] = { generation := h.generation, warrant := some w } ∧
      G.slots[j] = { F.slots[j] with warrant := some { old with state := .suspended, expiry := none } } ∧
      (∀ l : SlotId, l ≠ i → l ≠ j → G.slots[l] = F.slots[l]) ∧
      G.cars[c] = { car with
        current := some h
        stack := car.stack ++ [F.handleOf j]
        holds := if against then car.holds.add .reversal else car.holds
        front := car.last.bind (fun l =>
          frontAt car.cfg pz l.speed.natAbs (some (if against then old.dir else d))) } ∧
      F.sameCarsBut G c ∧
      G.occupancy[car.cfg.run] = insertEntry (entryOf run h w)
        ((F.occupancy[car.cfg.run]).filter (fun e => e.handle.slot != i)) ∧
      (∀ r : RunId, r ≠ car.cfg.run → G.occupancy[r] = F.occupancy[r]) ∧ Rezoned W F G c ∧
      G.notices = F.notices

/-- An `ask` is refused with the status of the first check of R77 that applies, in the order of its table, and BLOCKED
with the blocker when none of them applies and the walk gains no track; a refused `ask` changes no record. -/
def Obligations.AskRefusedInOrder : Prop :=
  ∀ (p : Port) (f : Frame) (rest : List Frame) (s : State) (q : AskBody), Offered s (.ask p) p f rest →
    decodeAsk f.body = some q →
    let W := s.records.world
    let F := s.records.fleet
    let refused := fun a : Answer => exec (.ask p) s = .next (s.answer p f rest s.records a)
    ((15 < q.carriage ∨ 1048575 < q.target ∨ q.cls < 1 ∨ 4 < q.cls) → refused { status := .badForm, body := [] }) ∧
    ∀ (c : CarId) (k : Cls), q.carriage = c.val → q.cls = k.code → q.target ≤ 1048575 →
      let car := F.cars[c]
      let target := min (q.target : Int) (runOf W F c).last
      let rows : List (Prop × Status) :=
        [(W.map.locked = false, .unlocked),
         (car.state = .unconfigured ∨ car.state = .offline, .offline),
         (k = .emergency ∧ p = .openPort, .portDenied),
         (∃ x : Cause, x ≠ .trip ∧ car.holds.has x = true, .held),
         (car.state = .tripped, .tripped),
         (∃ i w, F.currentOf c = some (i, w) ∧ (k ≠ .emergency ∨ w.cls = .emergency), .hasWarrant),
         (∀ i : SlotId, (F.slots[i]).warrant ≠ none, .tableFull),
         (F.currentOf c ≠ none ∧ 3 ≤ car.stack.length, .stackFull),
         (∃ pz, car.pose = some pz ∧ pz.lower ≤ target ∧ target ≤ pz.upper, .noMove)]
      (∀ st, firstRefusal rows st → refused { status := st, body := [] }) ∧
      ∀ (pz : Pose) (d : Dir), car.pose = some pz → noRefusal rows → (d = .up ↔ pz.upper < target) →
        let plan : WalkPlan := { car := c, cls := k, dir := d, base := pz.lead d, target := target, oldSpan := none,
                                 ownSpan := none, met := none }
        (walk W F plan).gains plan = false →
        refused { status := .blocked, body := be 1 (codeOr0 Blocker.code (walk W F plan).blocker) }

/-- `extend`, `trim`, `release` and `confirm` are refused with the status of the first check of R76 that applies:
BAD_FORM for a slot beyond 47 or a point beyond 1,048,575, STALE for a handle that names no live warrant, NOT_OWNER on the
Open Port for a warrant of another origin. A refused request changes no record. -/
def Obligations.HandleChecksRefuse : Prop :=
  ∀ (i : Instr) (p : Port) (f : Frame) (rest : List Frame) (s : State) (slot generation point : Nat),
    Offered s i p f rest →
    ((i = .extend p ∧ decodePoint f.body = some { slot := slot, generation := generation, point := point }) ∨
      (i = .trim p ∧ decodePoint f.body = some { slot := slot, generation := generation, point := point }) ∨
      (i = .release p ∧ decodeHandle f.body = some { slot := slot, generation := generation } ∧ point = 0) ∨
      (i = .confirm p ∧ decodeHandle f.body = some { slot := slot, generation := generation } ∧ point = 0)) →
    let refused := fun st : Status =>
      exec i s = .next (s.answer p f rest s.records { status := st, body := [] })
    ((47 < slot ∨ 1048575 < point) → refused .badForm) ∧
    ∀ n : SlotId, slot = n.val → point ≤ 1048575 →
      let live := s.records.fleet.live { slot := n, generation := BitVec.ofNat 8 generation }
      (live = none → refused .stale) ∧
      ∀ w, live = some w → p = .openPort → w.origin ≠ .openPort f.station → refused .notOwner

/-- An `extend` is refused BAD_STATE, HELD, BAD_TARGET or BLOCKED in that order; otherwise the warrant takes the new
target, the walk's limit, the confirm point it had or the walk's, and the lesser ceiling, a GRANTED one a new expiry tick,
and its entry follows. Nothing else changes but the carriage's zones. The start of its walk is as notes/assumptions/13.md
reads R69. A confirm point of -1 is sent as 45 codes it. -/
def Obligations.ExtendLengthensWarrant : Prop :=
  ∀ (p : Port) (f : Frame) (rest : List Frame) (s : State) (q : PointBody) (i : SlotId) (w : Warrant),
    Offered s (.extend p) p f rest → decodePoint f.body = some q → q.slot = i.val → q.point ≤ 1048575 →
    let W := s.records.world
    let F := s.records.fleet
    F.live { slot := i, generation := BitVec.ofNat 8 q.generation } = some w →
    (p = .openPort → w.origin = .openPort f.station) →
    let c := w.carriage
    let run := runOf W F c
    let target := min (q.point : Int) run.last
    let plan : WalkPlan := { car := c, cls := w.cls, dir := w.dir, base := w.limit, target := target, oldSpan := none
                             ownSpan := some (min (run.numAt w.rear) (run.numAt w.limit),
                               max (run.numAt w.rear) (run.numAt w.limit))
                             met := bayOfConfirm run w.dir w.confirm }
    let res := walk W F plan
    let rows : List (Prop × Status) :=
      [(w.state = .suspended ∨ w.retireOnStop ≠ none, .badState),
       (∃ x : Cause, (F.cars[c]).holds.has x = true, .held),
       (beyond w.dir target w.limit = false, .badTarget)]
    (∀ st, firstRefusal rows st →
      exec (.extend p) s = .next (s.answer p f rest s.records { status := st, body := [] })) ∧
    (noRefusal rows → res.gains plan = false → exec (.extend p) s = .next (s.answer p f rest s.records
      { status := .blocked, body := be 1 (codeOr0 Blocker.code res.blocker) })) ∧
    (noRefusal rows → res.gains plan = true →
      let confirm := match w.confirm with
        | some x => some x
        | none => res.confirm
      let ceiling := leastCeiling W F c w.cls w.ceiling res.passed
      let w' := { w with target := target, limit := res.limit, confirm := confirm, ceiling := ceiling,
                         expiry := if w.state = .granted then some (W.now + BitVec.ofNat 32 w.lifetime)
                                   else w.expiry }
      ∃ G, exec (.extend p) s = .next (s.answer p f rest (s.records.withFleet G)
          { status := if res.blocker = none then .done else .partially
            body := handleBytes (some (F.handleOf i)) ++ be 3 res.limit.toNat ++ confirmBytes confirm ++
              be 2 ceiling ++ be 3 w.lifetime ++ be 1 (if run.last < (q.point : Int) then 1 else 0) ++
              be 1 (codeOr0 Blocker.code res.blocker) }) ∧
        G.slots[i] = { F.slots[i] with warrant := some w' } ∧ F.sameSlotsBut G i ∧ G.cars = F.cars ∧
        G.occupancy[(F.cars[c]).cfg.run] = insertEntry (entryOf run (F.handleOf i) w')
          ((F.occupancy[(F.cars[c]).cfg.run]).filter (fun e => e.handle.slot != i)) ∧
        (∀ r : RunId, r ≠ (F.cars[c]).cfg.run → G.occupancy[r] = F.occupancy[r]) ∧ Rezoned W F G c ∧
        G.notices = F.notices)

/-- A `trim` to a point that is not nearer is refused BAD_TARGET; otherwise the limit taken is the new limit, or the floor
when that lies behind it, and never beyond the current limit. The warrant takes it, drops a confirm point not short of it
and has its ceiling computed in full, with its entry and the carriage's zones following; a limit taken equal to the
current one changes nothing. That the floor is taken no further back than the rear is the model's choice
(notes/assumptions/21.md). The units of the ceiling are as 11 and 12 read R75, and the floor in a run-out as 40 reads R84.
A confirm point of -1 is sent as 45 codes it. -/
def Obligations.TrimShortensWarrant : Prop :=
  ∀ (p : Port) (f : Frame) (rest : List Frame) (s : State) (q : PointBody) (i : SlotId) (w : Warrant),
    Offered s (.trim p) p f rest → decodePoint f.body = some q → q.slot = i.val → q.point ≤ 1048575 →
    let W := s.records.world
    let F := s.records.fleet
    F.live { slot := i, generation := BitVec.ofNat 8 q.generation } = some w →
    (p = .openPort → w.origin = .openPort f.station) →
    let c := w.carriage
    let run := runOf W F c
    let stop := if w.state = .suspended then w.rear
      else if (F.cars[c]).holds.reversal = true then run.roundOut w.dir ((F.cars[c]).lead w.dir)
      else roundedFront W F c w.dir
    let floor := if beyond w.dir w.rear stop then w.rear else stop
    let taken : Int := if beyond w.dir floor q.point then (if beyond w.dir floor w.limit then w.limit else floor)
      else q.point
    (beyond w.dir w.limit q.point = false →
      exec (.trim p) s = .next (s.answer p f rest s.records { status := .badTarget, body := [] })) ∧
    (beyond w.dir w.limit q.point = true → taken = w.limit → exec (.trim p) s = .next (s.answer p f rest s.records
      { status := .clamped, body := be 3 w.limit.toNat ++ confirmBytes w.confirm ++ be 2 w.ceiling })) ∧
    (beyond w.dir w.limit q.point = true → taken ≠ w.limit →
      ∃ G, exec (.trim p) s = .next (s.answer p f rest (s.records.withFleet G)
          { status := if taken = q.point then .done else .clamped
            body := be 3 taken.toNat ++ confirmBytes (w.confirm.filter (fun x => beyond w.dir taken x)) ++
              be 2 (fullCeiling W F { w with limit := taken }) }) ∧
        Shortened W F i w taken w.retireOnStop G)

/-- `release` retires a warrant at once with reason RELEASED and answers RETIRED when its carriage stands, when it is
SUSPENDED, and when it is GRANTED and carries no mark or its carriage is mute; it attempts no resumption but the one
that an emptied hold set makes when KEY_LOST leaves it. An ACTIVE warrant of a moving carriage, and a GRANTED one that
carries retire-on-stop when the moving carriage is not mute, is cut to the nearer of its floor and its limit, marked
RELEASED unless it carries a reason already, and answered STOPPING. That a marked GRANTED warrant is cut again unless
the carriage is mute, and else, like a marked SUSPENDED one, retires at once with reason RELEASED, is the model's choice
among rules that differ (notes/assumptions/41.md); a floor no further back than the rear is its choice too (21). The
front after a retirement in a run-out is as 10 reads R47, the ceiling as 11 and 12 read R75, and the floor in a run-out
as 40 reads R90. -/
def Obligations.ReleaseRetiresOrMarks : Prop :=
  ∀ (p : Port) (f : Frame) (rest : List Frame) (s : State) (q : HandleBody) (i : SlotId) (w : Warrant),
    Offered s (.release p) p f rest → decodeHandle f.body = some q → q.slot = i.val →
    let W := s.records.world
    let F := s.records.fleet
    F.live { slot := i, generation := BitVec.ofNat 8 q.generation } = some w →
    (p = .openPort → w.origin = .openPort f.station) →
    let c := w.carriage
    let v := ((F.cars[c]).last.map (fun l => l.speed.natAbs)).getD 0
    let stops := w.state = .active ∨ (w.state = .granted ∧ w.retireOnStop ≠ none ∧ (F.cars[c]).mute = false)
    ((v ≤ 5 ∨ ¬stops) → ∃ G, RetiredWhole W F i w .released G ∧
      exec (.release p) s = .next (s.answer p f rest (s.records.withFleet G) { status := .done, body := be 1 1 })) ∧
    (5 < v → stops →
      let run := runOf W F c
      let stop := if (F.cars[c]).holds.reversal = true then run.roundOut w.dir ((F.cars[c]).lead w.dir)
        else run.roundOut w.dir (((F.cars[c]).front).getD ((F.cars[c]).lead w.dir))
      let floor := if beyond w.dir w.rear stop then w.rear else stop
      let limit := if beyond w.dir w.limit floor then floor else w.limit
      ∃ G, exec (.release p) s = .next (s.answer p f rest (s.records.withFleet G)
          { status := .done, body := be 1 2 }) ∧
        Shortened W F i w limit (some (w.retireOnStop.getD .released)) G)

/-- After the checks of R76, `confirm` is refused NOTHING_PENDING for a warrant with no confirm point; otherwise it
removes the confirm point, in any state of the warrant, marked or not, answers DONE with the limit, and no record but the
warrant changes. Every warrant may be confirmed on the Assured Port, and on the Open Port one of the request's own
station. -/
def Obligations.ConfirmRemovesPoint : Prop :=
  ∀ (p : Port) (f : Frame) (rest : List Frame) (s : State) (q : HandleBody) (i : SlotId) (w : Warrant),
    Offered s (.confirm p) p f rest → decodeHandle f.body = some q → q.slot = i.val →
    let F := s.records.fleet
    F.live { slot := i, generation := BitVec.ofNat 8 q.generation } = some w →
    (p = .openPort → w.origin = .openPort f.station) →
    (w.confirm = none →
      exec (.confirm p) s = .next (s.answer p f rest s.records { status := .nothingPending, body := [] })) ∧
    (w.confirm ≠ none → exec (.confirm p) s = .next (s.answer p f rest
      (s.records.withFleet { F with
        slots := F.slots.set i { F.slots[i] with warrant := some { w with confirm := none } } })
      { status := .done, body := be 3 w.limit.toNat }))

/-- A resumption attempt is made exactly when the carriage has no current warrant, a stack that is not empty, an empty
hold set, and is not TRIPPED. It takes the top warrant. A marked one retires with its reason, one whose limit does not lie
beyond the leading end retires OVERTAKEN, and one whose walk gains no track retires RESUME_FAIL, the last two raising
RESUME_FAIL; the attempt then goes on to the next entry, and with none left the braking front is computed anew. Otherwise
the top warrant becomes current and GRANTED with the walk's limit, its rear reset and a new expiry tick, and RESUMED is
raised; the stack beneath it and every other slot and carriage are kept. That the walk takes the warrant's old span as its
own span for check bays is the model's reading (notes/assumptions/17.md). The start of the walk and the units of the
ceiling are as 13 and 12 read R69 and R75. -/
def Obligations.ResumptionTakesTop : Prop :=
  (∀ (W : World) (F : Fleet) (c : CarId),
    ((F.cars[c]).current ≠ none ∨ (F.cars[c]).stack = [] ∨ (F.cars[c]).state = .tripped ∨
      ∃ x : Cause, (F.cars[c]).holds.has x = true) → attempt W F c = F) ∧
  ∀ (W : World) (F : Fleet) (c : CarId) (below : List Handle) (h : Handle) (w : Warrant),
    let car := F.cars[c]
    car.current = none → car.stack = below ++ [h] → h ∉ below → car.state ≠ .tripped →
    (∀ x : Cause, car.holds.has x = false) → F.live h = some w → w.carriage = c →
    let run := runOf W F c
    let kept := w.confirm.filter (fun x => beyond w.dir x (car.lead w.dir))
    let span := (min (run.numAt w.rear) (run.numAt w.limit), max (run.numAt w.rear) (run.numAt w.limit))
    let plan : WalkPlan := { car := c, cls := w.cls, dir := w.dir, base := car.lead w.dir, target := w.target,
                             oldSpan := some span, ownSpan := some span, met := bayOfConfirm run w.dir kept }
    let res := walk W F plan
    let G := attempt W F c
    let disposed := fun (reason : Reason) (notice : List NoticeValue) => ∃ U, Retired W F h.slot w reason U ∧
      let V := notice.foldl (fun X v => X.raise { carriage := some c, handle := some h, value := v }) U
      G = if below = [] then { V with cars := V.cars.set c { V.cars[c] with front := V.frontNow c } }
        else attempt W V c
    (∀ reason, w.retireOnStop = some reason → disposed reason []) ∧
    (w.retireOnStop = none → beyond w.dir w.limit (car.lead w.dir) = false →
      disposed .overtaken [.resumeFail .overtaken none]) ∧
    (w.retireOnStop = none → beyond w.dir w.limit (car.lead w.dir) = true → res.gains plan = false →
      disposed .resumeFail [.resumeFail .resumeFail res.blocker]) ∧
    (w.retireOnStop = none → beyond w.dir w.limit (car.lead w.dir) = true → res.gains plan = true →
      let w' := { w with
        limit := res.limit, rear := rearFor W F c w.dir
        confirm := match res.confirm with
          | some x => some x
          | none => kept.filter (fun x => beyond w.dir res.limit x)
        state := .granted, expiry := some (W.now + BitVec.ofNat 32 w.lifetime)
        ceiling := leastCeiling W F c w.cls car.cfg.maxSpeed (run.between (car.lead w.dir) res.limit) }
      G.slots[h.slot] = { F.slots[h.slot] with warrant := some w' } ∧ F.sameSlotsBut G h.slot ∧
        G.cars[c] = { car with current := some h, stack := below, front := G.frontNow c } ∧ F.sameCarsBut G c ∧
        G.occupancy[car.cfg.run] = insertEntry (entryOf run h w')
          ((F.occupancy[car.cfg.run]).filter (fun e => e.handle.slot != h.slot)) ∧
        (∀ r : RunId, r ≠ car.cfg.run → G.occupancy[r] = F.occupancy[r]) ∧ Rezoned W F G c ∧
        G.notices = (F.raise { carriage := some c, handle := some h,
                               value := .resumed res.blocker.isSome res.blocker }).notices)

/-! ## Holds and trips -/

/-- `hold` adds its port's cause to one configured carriage or to all of them; a carriage number that is neither 0 to 15
nor ALL is refused BAD_FORM, and a single UNCONFIGURED one OFFLINE. `unhold` removes its port's cause, or ESTOP on the
Assured Port with the line released, from one configured carriage or from all; it is refused in the order of R152. A
hold set that becomes empty by it is a resumption trigger. For ALL the carriages are taken in ascending order, which is
the model's reading (notes/assumptions/14.md). -/
def Obligations.HoldAndUnhold : Prop :=
  ∀ (p : Port) (f : Frame) (rest : List Frame) (s : State),
    let W := s.records.world
    let F := s.records.fleet
    let own : Cause := match p with
      | .openPort => .openHold
      | .assured => .assuredHold
    (Offered s (.hold p) p f rest →
      (∀ x : Nat, decodeByte f.body = some x → 15 < x → x ≠ 0xFF →
        exec (.hold p) s = .next (s.answer p f rest s.records { status := .badForm, body := [] })) ∧
      (∀ c : CarId, decodeByte f.body = some c.val → (F.cars[c]).configured = false →
        exec (.hold p) s = .next (s.answer p f rest s.records { status := .offline, body := [] })) ∧
      (∀ c : CarId, decodeByte f.body = some c.val → (F.cars[c]).configured = true →
        exec (.hold p) s = .next (s.answer p f rest
          (s.records.withFleet { F with cars := F.cars.set c { F.cars[c] with holds := (F.cars[c]).holds.add own } })
          { status := .done, body := [] })) ∧
      (decodeByte f.body = some 0xFF → exec (.hold p) s = .next (s.answer p f rest
        (s.records.withFleet { F with
          cars := F.cars.map (fun k => if k.configured then { k with holds := k.holds.add own } else k) })
        { status := .done, body := [] }))) ∧
    ∀ q : PairBody, Offered s (.unhold p) p f rest → decodePair f.body = some q →
      let cause := if q.snd = 0 then own else .estop
      (((15 < q.fst ∧ q.fst ≠ 0xFF) ∨ 1 < q.snd) →
        exec (.unhold p) s = .next (s.answer p f rest s.records { status := .badForm, body := [] })) ∧
      (q.snd = 1 → p = .openPort → (q.fst < 16 ∨ q.fst = 0xFF) →
        exec (.unhold p) s = .next (s.answer p f rest s.records { status := .portDenied, body := [] })) ∧
      (∀ c : CarId, q.fst = c.val → q.snd ≤ 1 → (q.snd = 1 → p = .assured) → (F.cars[c]).configured = false →
        exec (.unhold p) s = .next (s.answer p f rest s.records { status := .offline, body := [] })) ∧
      (q.snd = 1 → p = .assured → W.estopLine = true →
        (q.fst = 0xFF ∨ ∃ c : CarId, q.fst = c.val ∧ (F.cars[c]).configured = true) →
        exec (.unhold p) s = .next (s.answer p f rest s.records { status := .stillPresent, body := [] })) ∧
      (q.snd ≤ 1 → (q.snd = 1 → p = .assured ∧ W.estopLine = false) →
        (∀ c : CarId, q.fst = c.val → (F.cars[c]).configured = true →
          exec (.unhold p) s = .next (s.answer p f rest (s.records.withFleet (causeLifted W F c cause))
            { status := .done, body := [] })) ∧
        (q.fst = 0xFF → ∃ G, exec (.unhold p) s = .next (s.answer p f rest (s.records.withFleet G)
            { status := .done, body := [] }) ∧
          G = (List.finRange 16).foldl
            (fun H c => if (F.cars[c]).configured then causeLifted W H c cause else H) F ∧
          (F.Book → ∀ c : CarId, (G.cars[c]).holds =
            if (F.cars[c]).configured then (F.cars[c]).holds.remove cause else (F.cars[c]).holds)))

/-- `clear` is refused in the order of R159, STILL_PRESENT when the last report still fails the check of the recorded
kind: SKEW, OFF_RUN and INTRUSION by the recorded extent, OVERRUN and BRAKE_CURVE against the current warrant when there
is one, CONDITION and SERVICE by the bays the present extent touches, and OVERSPEED, REVERSE and UNWARRANTED never;
otherwise the carriage is STANDING with no trip record and no TRIP in its hold set, and an emptied hold set makes one
resumption attempt. The trip count and the downshift level are kept. -/
def Obligations.ClearEndsTrip : Prop :=
  ∀ (p : Port) (f : Frame) (rest : List Frame) (s : State) (x : Nat), Offered s (.clear p) p f rest →
    decodeByte f.body = some x →
    let W := s.records.world
    let F := s.records.fleet
    let refused := fun st : Status => exec (.clear p) s = .next (s.answer p f rest s.records { status := st, body := [] })
    (15 < x → refused .badForm) ∧
    ∀ c : CarId, x = c.val →
      let k := F.cars[c]
      let v := (k.last.map (fun l => l.speed.natAbs)).getD 0
      (k.state = .unconfigured → refused .offline) ∧
      (k.state ≠ .unconfigured → k.state ≠ .tripped → refused .nothingPending) ∧
      ∀ t : TripRecord, k.state = .tripped → k.trip = some t →
        let run := runOf W F c
        let touched := fun bad : Bay → Prop => ∃ u ∈ occupied W F c, ∃ b, run.bay u.bay = some b ∧ bad b
        let against := fun far : Warrant → Int =>
          ∃ i w, F.currentOf c = some (i, w) ∧ beyond w.dir (far w) (w.confirm.getD w.limit) = true
        let fails := match t.kind with
          | .skew => ∃ pz, k.pose = some pz ∧ k.cfg.skewLimit < pz.skew
          | .offRun => ∃ pz, k.pose = some pz ∧ (pz.lower < 0 ∨ run.last < pz.upper)
          | .intrusion =>
            (∃ u ∈ occupied W F c, ∃ x ∈ othersClaims W F c, unitsConflict run.clearance u x = true) ∨
              ∃ z ∈ extentZones W F c, ∃ d, F.holders[z] = some d ∧ d ≠ c
          | .overrun => against (fun w => k.lead w.dir)
          | .brakeCurve => against (fun w => k.front.getD (k.lead w.dir))
          | .overspeed => False
          | .reverse => False
          | .unwarranted => False
          | .condition => touched (fun b => ∃ n, b.condition = some n ∧ W.conditions[n] = false)
          | .service => touched (fun b => b.inService = false)
        let rows : List (Prop × Status) :=
          [(p = .openPort ∧ t.kind ∈ [.skew, .offRun, .intrusion, .overrun, .condition, .service], .portDenied),
           (5 < v, .notStopped),
           (fails, .stillPresent)]
        (∀ st, firstRefusal rows st → refused st) ∧
        (noRefusal rows →
          let U : Fleet := { F with cars := F.cars.set c { k with state := .standing, trip := none } }
          exec (.clear p) s = .next (s.answer p f rest (s.records.withFleet (causeLifted W U c .trip))
            { status := .done, body := [] }))

/-- `restore` sets a carriage's downshift level and consecutive trip count to 0 and changes nothing else. It is refused
PORT_DENIED on the Open Port, BAD_FORM for a wrong body length or a number beyond 15, and OFFLINE for an UNCONFIGURED
carriage; otherwise it is answered DONE in any carriage state and either lock state, and the downshift cap is then that of
level 0, the max speed. That a wrong length is found before the port is the model's reading of R175
(notes/assumptions/7.md). -/
def Obligations.RestoreClearsDownshift : Prop :=
  ∀ (p : Port) (f : Frame) (rest : List Frame) (s : State), Offered s (.restore p) p f rest →
    let F := s.records.fleet
    let refused := fun st : Status =>
      exec (.restore p) s = .next (s.answer p f rest s.records { status := st, body := [] })
    (f.body.length ≠ 1 → refused .badForm) ∧
    (f.body.length = 1 → p = .openPort → refused .portDenied) ∧
    (∀ x, p = .assured → decodeByte f.body = some x → 15 < x → refused .badForm) ∧
    ∀ c : CarId, p = .assured → decodeByte f.body = some c.val →
      ((F.cars[c]).state = .unconfigured → refused .offline) ∧
      ((F.cars[c]).state ≠ .unconfigured →
        exec (.restore p) s = .next (s.answer p f rest
          (s.records.withFleet { F with cars := F.cars.set c { F.cars[c] with level := 0, tripCount := 0 } })
          { status := .done, body := [] }) ∧
        downshiftCap { F.cars[c] with level := 0, tripCount := 0 } = (F.cars[c]).cfg.maxSpeed)

/-! ## Conditions, wind and maintenance -/

/-- `wind` writes the clamped readings and now as the last wind tick, and the state is STORM while the STORM line is
asserted, else that of the gust; the reply is CLAMPED when a reading was clamped and carries the state. The STORM line's
assertion sets STORM, its release changes the line alone until the timeout is due, and the timeout sets UNKNOWN. Each
change of state acts as R140 to R143 say: a rise cuts to front each current warrant of an EXPOSED run that it reaches,
retires or marks WIND each suspended one, raises CUT_BACK for each it changed and, into GALE, UNKNOWN or STORM from CALM
or BREEZE, CLOSE_CALL with the number it reached. The warrants are taken one after the other, carriage by carriage as
notes/assumptions/14.md reads R104, and with each change the entry and the carriage's zones follow. That a suspended
one, when it retires, does so with reason WIND even when it already carries another is the model's choice, against the
last line of R89 (47). A cut's floor is no further back than the rear, which is the model's choice (21), and in a
run-out is as 40 reads R111. The front and ceilings are as 10, 11 and 12 read R47 and R75, the order of the CUT_BACK
notices as 15 reads R165, and that CLOSE_CALL counts a current warrant whose limit its cut keeps as 46 reads R165. -/
def Obligations.WindStateChangesAct : Prop :=
  (∀ (p : Port) (f : Frame) (rest : List Frame) (s : State) (q : WindBody), Offered s (.wind p) p f rest →
    decodeWind f.body = some q →
    let W := s.records.world
    let wind := { W.wind with
      mean := some (min q.mean 999), gust := some (min q.gust 999), lastTick := some W.now
      state := if W.wind.stormLine then .storm else newWindState W.wind (min q.gust 999) }
    let G := windChanged { W with wind := wind } W.wind.state s.records.fleet
    exec (.wind p) s = .next (s.answer p f rest
        ((s.records.withWorld { W with wind := wind }).withFleet G)
        { status := if q.mean ≤ 999 ∧ q.gust ≤ 999 then .done else .clamped, body := be 1 wind.state.code }) ∧
      WindActs { W with wind := wind } W.wind.state s.records.fleet G) ∧
  ∀ s : State, s.resetLine = false →
    let W := s.records.world
    let changed := fun (c : Instr) (wind : Wind) =>
      let G := windChanged { W with wind := wind } W.wind.state s.records.fleet
      WindActs { W with wind := wind } W.wind.state s.records.fleet G ∧
        exec c s = .next
          ({ s with records := (s.records.withWorld { W with wind := wind }).withFleet G } : State).drive
    let due := ∃ t, W.wind.lastTick = some t ∧ (W.wind.timeout : Int) ≤ sinceTick W.now t
    changed .stormAsserted { W.wind with state := .storm, stormLine := true } ∧
    (W.wind.stormLine = true → (¬due ∨ W.wind.state = .unknown) →
      changed .stormReleased { W.wind with stormLine := false }) ∧
    (W.wind.stormLine = true → due → W.wind.state ≠ .unknown →
      changed .stormReleased { W.wind with stormLine := false, state := .unknown }) ∧
    (W.wind.stormLine = false → due → W.wind.state ≠ .unknown →
      changed .windTimeout { W.wind with state := .unknown })

/-- `setwind` in range writes the six settings together, recomputing no state; `maint` opens the windows of its set with
the key present and no AUTO or OPERATOR warrant live on a run of the set, and `endmaint` closes them when no MAINTENANCE
warrant is. Each is refused otherwise, and nothing else changes. -/
def Obligations.SettingsAndWindowsWritten : Prop :=
  ∀ (f : Frame) (rest : List Frame) (s : State),
    let r := s.records
    let W := r.world
    let answered := fun (c : Instr) (world : World) (st : Status) =>
      exec c s = .next (s.answer .assured f rest (r.withWorld world) { status := st, body := [] })
    (∀ q : SetWindBody, Offered s (.setwind .assured) .assured f rest → decodeSetWind f.body = some q →
      let inRange := q.breeze < q.gale ∧ q.gale < q.storm ∧ q.storm ≤ 999 ∧ 1 ≤ q.galeCap ∧
        q.galeCap ≤ q.breezeCap ∧ q.breezeCap ≤ 1000 ∧ 2000 ≤ q.timeout ∧ q.timeout ≤ 30000
      (¬inRange → answered (.setwind .assured) W .badForm) ∧
      (inRange → answered (.setwind .assured)
        { W with wind := { W.wind with breezeThreshold := q.breeze, galeThreshold := q.gale,
                                       stormThreshold := q.storm, breezeCap := q.breezeCap, galeCap := q.galeCap,
                                       timeout := q.timeout } } .done)) ∧
    ∀ set : Nat, decodeByte f.body = some set →
      let live := fun k : Cls => ∃ (i : SlotId) (w : Warrant), (r.fleet.slots[i]).warrant = some w ∧ w.cls = k ∧
        Nat.testBit set (r.fleet.cars[w.carriage]).cfg.run.val = true
      let windows := fun v : Bool =>
        { W with windows := Vector.ofFn (fun i : RunId => if Nat.testBit set i.val then v else W.windows[i]) }
      (Offered s (.maint .assured) .assured f rest →
        (W.keyPresent = false → answered (.maint .assured) W .keyAbsent) ∧
        (W.keyPresent = true → (live .auto ∨ live .operator) → answered (.maint .assured) W .busy) ∧
        (W.keyPresent = true → ¬live .auto → ¬live .operator → answered (.maint .assured) (windows true) .done)) ∧
      (Offered s (.endmaint .assured) .assured f rest →
        (live .maintenance → answered (.endmaint .assured) W .busy) ∧
        (¬live .maintenance → answered (.endmaint .assured) (windows false) .done))

/-- A COND line's change and a `cond` for conditions 8 to 15 set the condition: the value it has changes nothing;
turning TRUE raises CONDITION and changes no warrant; turning FALSE raises CONDITION and hands over one cut to unit
demand naming the condition, which reaches nothing while no warrant is live. A number below 8 or beyond 15, or another
value, is refused BAD_FORM; that the value is coded 1 TRUE and 0 FALSE is the model's reading (notes/assumptions/44.md).
A cut to unit, of a condition or of a bay taken out, takes the carriages in order, each stack from the bottom and then
the current warrant, and raises CUT_BACK for each warrant it changed. A warrant cut from its leading end trips when the
front reaches the first affected unit, else is shortened to short of that unit, or, when that leaves no track, retires
CUT_OFF at standstill and is marked CUT_OFF when moving; one cut from its rear retires when its rear unit is affected,
else is shortened. That a limit behind the rear leaves no track is the model's choice (21), and that the carriages are
taken one after the other, a resumption within its carriage's turn, its reading (14). That a warrant cut from its rear
retires COND_LOST or CUT_OFF even when it carries another reason is its choice too, against the last line of R89 (47).
What a trip leaves is as 8, 9 and 31 read R156 to R158, the front after a retirement in a run-out as 10 reads R47, the
ceilings as 11 and 12 read R75, the floor in a run-out as 40 reads R90, and the order of the CUT_BACK notices as 15
reads R165. -/
def Obligations.ConditionChangesAct : Prop :=
  let after := fun (r : Records) (n : CondId) (v : Bool) =>
    let W := { r.world with conditions := r.world.conditions.set n v }
    let F := r.fleet.raise { carriage := none, handle := none, value := .condition n v }
    if r.world.conditions[n] = v then r
    else if v then (r.withWorld W).withFleet F
    else (r.withWorld W).withFleet (cutToUnit W
      { bay := none, condition := some n, source := .condition n, kind := .condition, lost := .condLost } F)
  (∀ (s : State) (n : Fin 8) (v : Bool), s.resetLine = false →
    exec (.condLineChange n v) s = .next
      ({ s with records := after s.records (n.castLE (by decide)) v } : State).drive) ∧
  (∀ (f : Frame) (rest : List Frame) (s : State) (q : PairBody), Offered s (.cond .assured) .assured f rest →
    decodePair f.body = some q →
    ((q.fst < 8 ∨ 15 < q.fst ∨ 1 < q.snd) → exec (.cond .assured) s =
      .next (s.answer .assured f rest s.records { status := .badForm, body := [] })) ∧
    ∀ (n : CondId) (v : Bool), q.fst = n.val → 8 ≤ n.val → q.snd = (if v then 1 else 0) →
      exec (.cond .assured) s =
        .next (s.answer .assured f rest (after s.records n v) { status := .done, body := [] })) ∧
  (∀ (W : World) (F : Fleet) (d : UnitDemand), (∀ i : SlotId, (F.slots[i]).warrant = none) → cutToUnit W d F = F) ∧
  (∀ (W : World) (F : Fleet) (d : UnitDemand),
    let one := fun (c : CarId) (acc : Fleet × List Reached) (h : Handle) =>
      let r := cutUnitStep W d acc.1 h
      (r.1, if r.2 then acc.2 ++ [(c, h)] else acc.2)
    let all := (List.finRange 16).foldl
      (fun acc c => ((acc.1.cars[c]).stack ++ (acc.1.cars[c]).current.toList).foldl (one c) acc) (F, ([] : List Reached))
    cutToUnit W d F = all.2.foldl
      (fun G x => G.raise { carriage := some x.1, handle := some x.2, value := .cutBack d.source }) all.1) ∧
  ∀ (W : World) (F : Fleet) (d : UnitDemand) (h : Handle), (F.live h = none → cutUnitStep W d F h = (F, false)) ∧
    ∀ w, F.Book → F.live h = some w →
      let c := w.carriage
      let k := F.cars[c]
      let run := runOf W F c
      let v := (k.last.map (fun l => l.speed.natAbs)).getD 0
      let span := inOrder w.dir (spanUnits W F w)
      let affected := fun u : TrackUnit => match d.bay with
        | some (r, b) => decide (r = k.cfg.run) && decide (b = u.bay)
        | none => (run.bay u.bay).any (fun b => b.condition.isSome && b.condition == d.condition)
      let leads := w.state ≠ .suspended ∨ (k.holds.reversal = true ∧ k.stack.getLast? = some h)
      let base := k.lead w.dir
      let front := if w.state ≠ .suspended ∧ k.holds.reversal = true then base else k.front.getD base
      let cut := fun (o : Bool) (P : Fleet → Prop) => ∃ G, cutUnitStep W d F h = (G, o) ∧ P G
      (leads → (span.filter (fun u => beyond w.dir (u.far w.dir) base)).find? affected = none →
        cutUnitStep W d F h = (F, false)) ∧
      (leads → ∀ u, (span.filter (fun u => beyond w.dir (u.far w.dir) base)).find? affected = some u →
        let n := u.near w.dir
        let limit := onward w.dir n (-1)
        let track := beyond w.dir limit base = true ∧ beyond w.dir w.rear limit = false
        (atOrBeyond w.dir front n = true → cut false (TripActs W F c d.kind v false)) ∧
        (atOrBeyond w.dir front n = false → track → cut true (Shortened W F h.slot w limit w.retireOnStop)) ∧
        (atOrBeyond w.dir front n = false → ¬track → v ≤ 5 → cut true (RetiredWhole W F h.slot w .cutOff)) ∧
        (atOrBeyond w.dir front n = false → ¬track → 5 < v →
          cut true (Shortened W F h.slot w (cutLimit W F w) (some (w.retireOnStop.getD .cutOff))))) ∧
      (¬leads → span.find? affected = none → cutUnitStep W d F h = (F, false)) ∧
      (¬leads → ∀ u, span.find? affected = some u →
        (u.num = run.numAt w.rear → cut true (RetiredWhole W F h.slot w d.lost)) ∧
        (u.num ≠ run.numAt w.rear →
          cut true (Shortened W F h.slot w (onward w.dir (u.near w.dir) (-1)) w.retireOnStop)))

/-! ## Notices, peek and restart -/

/-- `notices` answers one entry for each visible kind in ascending order, kind, count, carriage, handle and a four-byte
value, then clears the pending flags and counts of those kinds alone, keeping details and masks. `mask` on the Assured
Port writes every kind's mask and nothing else. That the kind's byte is its number of R164, 0 to 14, is the model's
reading (notes/assumptions/25.md). -/
def Obligations.NoticesCollectedAndMasked : Prop :=
  (∀ (p : Port) (f : Frame) (rest : List Frame) (s : State), Offered s (.notices p) p f rest → f.body = [] →
    let F := s.records.fleet
    ∃ (G : Fleet) (entries : List (List Byte)),
      exec (.notices p) s = .next (s.answer p f rest (s.records.withFleet G)
        { status := .done, body := entries.flatten }) ∧
      (∀ k : Fin 15, G.notices[k] =
        if (F.notices[k]).pending = true ∧ (F.notices[k]).mask = true then
          { F.notices[k] with pending := false, count := 0 }
        else F.notices[k]) ∧
      G.cars = F.cars ∧ G.slots = F.slots ∧ G.occupancy = F.occupancy ∧ G.holders = F.holders ∧ G.attn = false ∧
      entries = ((List.finRange 15).filter (fun k => (F.notices[k]).pending && (F.notices[k]).mask)).map
        (fun k => noticeEntry k F.notices[k]) ∧
      ∀ e ∈ entries, e.length = 9) ∧
  ∀ (f : Frame) (rest : List Frame) (s : State) (masks : List Bool), Offered s (.mask .assured) .assured f rest →
    decodeMask f.body = some masks →
    let F := s.records.fleet
    exec (.mask .assured) s = .next (s.answer .assured f rest
      (s.records.withFleet { F with
        notices := Vector.ofFn (fun k : Fin 15 => { F.notices[k] with mask := masks.getD k.val false }) })
      { status := .done, body := [] })

/-- `peek` changes no record: the count of free values used alone moves, which is the model's own
(notes/assumptions/2.md). A subject or number that names no record is refused BAD_FORM; otherwise the reply is DONE, its
length is that of the subject's layout, and its bytes are the subject's record in that layout, each byte for which the
manual states no value being a free value. How a field that is none is coded is the model's reading (26). A confirm point
of -1 is coded as position 0 is (45). -/
def Obligations.PeekChangesNothing : Prop :=
  ∀ (p : Port) (f : Frame) (rest : List Frame) (s : State) (q : TripleBody), Offered s (.peek p) p f rest →
    decodeTriple f.body = some q →
    let r := s.records
    let length : Option Nat := match q.fst with
      | 1 => if q.snd < 48 then some 32 else none
      | 2 => if q.snd < 16 then some 122 else none
      | 3 => if h : q.snd < 8 then
          some (10 + 1 + 7 * min 32 ((r.fleet.occupancy[(⟨q.snd, h⟩ : RunId)]).length - q.thd)) else none
      | 4 => if q.snd < 8 ∧ q.thd ≤ 47 then some 21 else none
      | 5 => if q.snd < 32 then some 11 else none
      | 6 => some 23
      | 7 => some 16
      | _ => none
    let record : Option PeekBytes := match q.fst with
      | 1 => if h : q.snd < 48 then some (peekWarrant r.fleet ⟨q.snd, h⟩) else none
      | 2 => if h : q.snd < 16 then some (peekCarriage r.world r.fleet ⟨q.snd, h⟩) else none
      | 3 => if h : q.snd < 8 then some (peekRun r.world r.fleet ⟨q.snd, h⟩ q.thd) else none
      | 4 => if h : q.snd < 8 then some (peekBay r.world ⟨q.snd, h⟩ q.thd) else none
      | 5 => if h : q.snd < 32 then some (peekZone r.world r.fleet ⟨q.snd, h⟩) else none
      | 6 => some (peekWind r.world.wind)
      | 7 => some (peekConditions r.world)
      | _ => none
    (length = none → exec (.peek p) s = .next (s.answer p f rest r { status := .badForm, body := [] })) ∧
    ∀ n, length = some n → ∃ (bytes : PeekBytes) (body : List Byte), record = some bytes ∧
      exec (.peek p) s = .next (s.answer p f rest { r with unstated := r.unstated + bytes.countP Option.isNone }
        { status := .done, body := body }) ∧
      body.length = bytes.length ∧
      (∀ (j : Nat) (b : Byte), bytes[j]? = some (some b) → body[j]? = some b) ∧
      (∀ j : Nat, bytes[j]? = some none →
        body[j]? = some (Config.freeByte (r.unstated + (bytes.take j).countP Option.isNone))) ∧
      ((∀ c : CarId, (r.fleet.cars[c]).cfg.offsets.length ≤ 8 ∧ (r.fleet.cars[c]).stack.length ≤ 3 ∧
        ∀ l, (r.fleet.cars[c]).last = some l → l.positions.length ≤ 8) → body.length = n)

/-- `restart` on the Assured Port discards every waiting frame but itself with no reply, keeps the map, the lock state,
the conditions, the wind, the windows, the clock and the generation counters, frees every slot and list, and leaves each
carriage's record but for its current warrant, its stack, its last retire, its front and its hold set, to which
ASSURED_HOLD is added when it is configured and from which REVERSAL is removed, and KEY_LOST with a MAINTENANCE
warrant's retirement. The last retire of a carriage with warrants is RESTART and the highest slot among them. On a
LOCKED map a zone stays with its holder while that carriage's present extent reaches it, and else goes to the
lowest-numbered carriage whose present extent does. Pending flags, counts and details are cleared, masks kept. That the
front of a carriage that loses its supervising warrant is computed anew is the model's reading of R47 over R43
(notes/assumptions/32.md). -/
def Obligations.RestartKeepsMap : Prop :=
  ∀ (f : Frame) (rest : List Frame) (s : State), Offered s (.restart .assured) .assured f rest →
    s.records.fleet.Book → s.records.fleet.Lists →
    let F := s.records.fleet
    let owns := fun (c : CarId) (i : SlotId) => ((F.slots[i]).warrant.any (fun w => w.carriage == c)) = true
    let maint := fun (c : CarId) =>
      (List.finRange 48).any (fun i => (F.slots[i]).warrant.any (fun w => w.carriage == c && w.cls == .maintenance))
    ∃ G, exec (.restart .assured) s = .next
        (({ s with openPort := { s.openPort with queue := [] } } : State).answer .assured f []
          (s.records.withFleet G) { status := .done, body := [] }) ∧
      (∀ i : SlotId, G.slots[i] = { generation := (F.slots[i]).generation, warrant := none }) ∧
      (∀ r : RunId, G.occupancy[r] = []) ∧
      (∀ c : CarId, ∃ front lastRetire holds, G.cars[c] = { F.cars[c] with
        current := none, stack := [], front := front, lastRetire := lastRetire, holds := holds } ∧
        holds.reversal = false ∧
        holds.assuredHold = ((F.cars[c]).configured || (F.cars[c]).holds.assuredHold) ∧
        (∀ x : Cause, x ∈ [.trip, .mute, .estop, .openHold] → holds.has x = (F.cars[c]).holds.has x) ∧
        holds.keyLost = ((F.cars[c]).holds.keyLost && !maint c) ∧
        ((∀ i : SlotId, ¬owns c i) → lastRetire = (F.cars[c]).lastRetire) ∧
        (∀ i : SlotId, owns c i → (∀ j : SlotId, owns c j → j ≤ i) →
          lastRetire = some (.restart, F.handleOf i)) ∧
        front = if (F.cars[c]).current ≠ none ∨ ((F.cars[c]).holds.reversal = true ∧ (F.cars[c]).stack ≠ []) then
            G.frontNow c
          else (F.cars[c]).front) ∧
      (∀ z : ZoneId, G.holders[z] =
        if s.records.world.map.locked then
          match F.holders[z] with
          | some c => if z ∈ extentZones s.records.world F c then some c else lowestReaching s.records.world F z
          | none => lowestReaching s.records.world F z
        else none) ∧
      (∀ k : Fin 15, G.notices[k] =
        { pending := false, mask := (F.notices[k]).mask, count := 0, detail := none })

/-! ## Lines and the clock -/

/-- The assertion of the ESTOP line sets the line state, adds ESTOP to every configured carriage, retires ESTOP the
current warrant of each configured carriage whose last report showed standstill and cuts and marks that of each moving
one, leaves every suspended warrant of a configured carriage, raises CUT_BACK for each current warrant, and raises ESTOP
once with the number of current warrants reached. A configured carriage keeps its stack, every other cause but KEY_LOST
where a MAINTENANCE warrant retires, and every field that a retirement does not write. The carriages are taken in
ascending order, as notes/assumptions/14.md reads R104, and with each cut or retirement its entry and the carriage's
zones follow. That the number counts every current warrant, whether its limit moved or not, is the model's reading
(notes/assumptions/16.md); the cut's floor is no further back than the rear (21), and in a run-out as 40 reads R90. The
ceilings are as 11 and 12 read R75, and the order of the CUT_BACK notices as 15 reads R165. -/
def Obligations.EstopHoldsEveryCarriage : Prop :=
  ∀ s : State, s.resetLine = false → s.records.world.estopLine = false → s.records.fleet.Book →
    let W := s.records.world
    let F := s.records.fleet
    let reached := reachedBy F (fun _ w => w.state != .suspended)
    ∃ G, exec .estopAsserted s = .next
        ({ s with
           records := (s.records.withWorld { s.records.world with estopLine := true }).withFleet G } : State).drive ∧
      (∃ P : Fleet, inTurn (estopTurn W) (List.finRange 16)
          { F with cars := F.cars.map (fun k => if k.configured then { k with holds := k.holds.add .estop } else k) } P ∧
        G.cars = P.cars ∧ G.slots = P.slots ∧ G.occupancy = P.occupancy ∧ G.holders = P.holders ∧
        ∀ n : Fin 15, n ≠ 1 → n ≠ 12 → G.notices[n] = P.notices[n]) ∧
      (∀ c : CarId, (F.cars[c]).configured = true →
        let k := F.cars[c]
        let stopped := if k.lastV ≤ 5 then F.currentOf c else none
        G.cars[c] = { k with
          holds := { k.holds with
            estop := true
            keyLost := k.holds.keyLost && !stopped.any (fun x => x.2.cls == .maintenance) }
          current := if k.lastV ≤ 5 then none else k.current
          lastRetire := (stopped.map (fun x => (.estop, F.handleOf x.1))).or k.lastRetire
          front := if stopped.isSome = true then G.frontNow c else k.front }) ∧
      (∀ c : CarId, (F.cars[c]).configured = false → (F.cars[c]).current = none → G.cars[c] = F.cars[c]) ∧
      (∀ (c : CarId) (i : SlotId) (w : Warrant), (F.cars[c]).configured = true → F.currentOf c = some (i, w) →
        let v := ((F.cars[c]).last.map (fun l => l.speed.natAbs)).getD 0
        (v ≤ 5 → G.slots[i] = { F.slots[i] with warrant := none } ∧ (G.cars[c]).current = none ∧
          (G.cars[c]).lastRetire = some (.estop, F.handleOf i)) ∧
        (5 < v → (G.cars[c]).current = (F.cars[c]).current ∧ G.slots[i] = markedSlot W F i w .estop)) ∧
      (∀ (i : SlotId) (w : Warrant), (F.slots[i]).warrant = some w → w.state = .suspended →
        (F.cars[w.carriage]).configured = true → G.slots[i] = F.slots[i]) ∧
      G.notices[(1 : Fin 15)] = cutBacks .estop reached F.notices[(1 : Fin 15)] ∧
      G.notices[(12 : Fin 15)] = (F.notices[(12 : Fin 15)]).occur
        { carriage := none, handle := none
          value := .estop ((List.finRange 16).filter (fun c => (F.cars[c]).current.isSome)).length }

/-- The release of MAINT_KEY closes every window and makes the key absent. After it every live MAINTENANCE warrant
carries retire-on-stop, and every GRANTED or ACTIVE warrant of another class is as it was. The current MAINTENANCE
warrant of a standing carriage has retired and KEY_LOST is gone; that of a moving one is cut and marked KEY_LOST, and
its carriage holds KEY_LOST. A suspended one has retired, but for one that supervises a run-out, which is cut and
marked; that it retires with reason KEY_LOST even when it already carries another is the model's choice, against the
last line of R89 (notes/assumptions/47.md). CUT_BACK is raised for each, and KEY_LOST once with their number and the
last of them; that they are counted carriage by carriage is the model's reading (notes/assumptions/15.md). A carriage
with no MAINTENANCE warrant keeps its record and its warrants, and every other its hold set but for KEY_LOST and its
configuration, pose and trip fields. The stacks are taken first and then the current warrants, each carriage by carriage
as 14 reads R104, and with each change the entry and the carriage's zones follow. Four clauses on warrants and notices
are for fleets in which a carriage that holds KEY_LOST has a current warrant, so that no removal resumes a warrant
before the count is taken. The cut's floor is no further back than the rear (21) and in a run-out is as 40 reads R90,
the front after a retirement in a run-out is as 10 reads R47, and the ceilings are as 11 and 12 read R75. -/
def Obligations.KeyReleaseEndsMaintenance : Prop :=
  ∀ s : State, s.resetLine = false → s.records.world.keyPresent = true → s.records.fleet.Book →
    let W := s.records.world
    let F := s.records.fleet
    let reached := reachedBy F (fun _ w => w.cls == .maintenance)
    ∃ G, exec .maintKeyReleased s = .next
        ({ s with
           records := (s.records.withWorld { s.records.world with
             keyPresent := false, windows := Vector.replicate 8 false }).withFleet G } : State).drive ∧
      (∀ (i : SlotId) (w : Warrant), (G.slots[i]).warrant = some w → w.cls = .maintenance →
        w.retireOnStop.isSome = true) ∧
      (∀ (i : SlotId) (w : Warrant), (F.slots[i]).warrant = some w → w.cls ≠ .maintenance → w.state ≠ .suspended →
        G.slots[i] = F.slots[i]) ∧
      (∃ E P : Fleet,
        inTurn (fun c F' G' => inTurn (keyStackTurn W) (F'.cars[c]).stack F' G') (List.finRange 16) F E ∧
        inTurn (keyCurrentTurn W) (List.finRange 16) E P ∧
        G.cars = P.cars ∧ G.slots = P.slots ∧ G.occupancy = P.occupancy ∧ G.holders = P.holders ∧
        ∀ n : Fin 15, n ≠ 1 → n ≠ 10 → G.notices[n] = P.notices[n]) ∧
      (∀ c : CarId,
        (∀ (i : SlotId) (w : Warrant), (F.slots[i]).warrant = some w → w.carriage = c → w.cls ≠ .maintenance) →
        G.cars[c] = F.cars[c] ∧ ∀ (i : SlotId) (w : Warrant), (F.slots[i]).warrant = some w → w.carriage = c →
          G.slots[i] = F.slots[i]) ∧
      (∀ c : CarId, ∃ (keyLost : Bool) (current : Option Handle) (stack : List Handle)
          (lastRetire : Option (Reason × Handle)) (front : Option Int),
        G.cars[c] = { F.cars[c] with
          holds := { (F.cars[c]).holds with keyLost := keyLost }, current := current, stack := stack
          lastRetire := lastRetire, front := front }) ∧
      (G.notices[(10 : Fin 15)]).pending = true ∧
      (G.notices[(10 : Fin 15)]).count = min 255 ((F.notices[(10 : Fin 15)]).count + 1) ∧
      ((∀ c : CarId, (F.cars[c]).holds.keyLost = true → (F.cars[c]).current ≠ none) →
        (∀ (c : CarId) (i : SlotId) (w : Warrant), F.currentOf c = some (i, w) → w.cls = .maintenance →
          let v := ((F.cars[c]).last.map (fun l => l.speed.natAbs)).getD 0
          (v ≤ 5 → G.slots[i] = { F.slots[i] with warrant := none } ∧ (G.cars[c]).holds.keyLost = false) ∧
          (5 < v → (G.cars[c]).current = (F.cars[c]).current ∧ (G.cars[c]).holds.keyLost = true ∧
            G.slots[i] = markedSlot W F i w .keyLost)) ∧
        (∀ (i : SlotId) (w : Warrant), (F.slots[i]).warrant = some w → w.cls = .maintenance → w.state = .suspended →
          let car := F.cars[w.carriage]
          let supervises := car.holds.reversal = true ∧ car.stack.getLast? = some (F.handleOf i)
          (¬supervises → G.slots[i] = { F.slots[i] with warrant := none }) ∧
          (supervises → car.front = F.frontNow w.carriage → G.slots[i] = markedSlot W F i w .keyLost)) ∧
        G.notices[(1 : Fin 15)] = cutBacks .keyLost reached F.notices[(1 : Fin 15)] ∧
        G.notices[(10 : Fin 15)] = (F.notices[(10 : Fin 15)]).occur
          { carriage := (lastReached reached).1, handle := (lastReached reached).2, value := .keyLost reached.length })

/-- A tick adds one to the Tick Counter, which wraps at 2^32; the release of the ESTOP line sets the line state to
released and does nothing else; the assertion of MAINT_KEY sets the key state to present and does nothing else. -/
def Obligations.TickAndSimpleLines : Prop :=
  (∀ s : State, s.resetLine = false → ∃ t, exec .tick s = .next t ∧
    t = { s with records := s.records.withWorld { s.records.world with now := s.records.world.now + 1 } } ∧
    t.records.world.now.toNat = (s.records.world.now.toNat + 1) % 2 ^ 32) ∧
  (∀ s : State, s.lineLaw → exec .estopReleased s = .next
    { s with records := s.records.withWorld { s.records.world with estopLine := false } }) ∧
  ∀ s : State, s.lineLaw → exec .maintKeyAsserted s = .next
    { s with records := s.records.withWorld { s.records.world with keyPresent := true } }

end
end

