-- ==== Sys2Proof/Laws/State.lean ====
section
/-! SUPPORT. One lemma for each field and each update of the state and its records: what the update leaves or writes
there. -/

namespace Sys2Proof.Machine

/-! ## The output lines -/

@[simp] theorem State.drive_records (s : State) : s.drive.records = s.records := rfl

@[simp] theorem State.drive_openPort (s : State) : s.drive.openPort = s.openPort := rfl

@[simp] theorem State.drive_assured (s : State) : s.drive.assured = s.assured := rfl

@[simp] theorem State.drive_transfer (s : State) : s.drive.transfer = s.transfer := rfl

@[simp] theorem State.drive_rateHigh (s : State) : s.drive.rateHigh = s.rateHigh := rfl

@[simp] theorem State.drive_resetLine (s : State) : s.drive.resetLine = s.resetLine := rfl

@[simp] theorem State.drive_pending (s : State) : s.drive.pending = s.pending := rfl

@[simp] theorem State.drive_holdLines (s : State) : 
    s.drive.holdLines = Vector.ofFn (fun c => (s.records.fleet.cars[c]).heldLine) := rfl

@[simp] theorem State.drive_attn (s : State) : s.drive.attn = s.records.fleet.attn := rfl

@[simp] theorem State.drive_port (s : State) (p : Port) : s.drive.port p = s.port p := by
  cases p <;> rfl

/-! ## The ports -/

@[simp] theorem State.modPort_records (s : State) (p : Port) (f : PortState → PortState) : (s.modPort p f).records = s.records := by
  cases p <;> rfl

@[simp] theorem State.modPort_transfer (s : State) (p : Port) (f : PortState → PortState) : (s.modPort p f).transfer = s.transfer := by
  cases p <;> rfl

@[simp] theorem State.modPort_rateHigh (s : State) (p : Port) (f : PortState → PortState) : (s.modPort p f).rateHigh = s.rateHigh := by
  cases p <;> rfl

@[simp] theorem State.modPort_resetLine (s : State) (p : Port) (f : PortState → PortState) : (s.modPort p f).resetLine = s.resetLine := by
  cases p <;> rfl

@[simp] theorem State.modPort_holdLines (s : State) (p : Port) (f : PortState → PortState) : (s.modPort p f).holdLines = s.holdLines := by
  cases p <;> rfl

@[simp] theorem State.modPort_attn (s : State) (p : Port) (f : PortState → PortState) : (s.modPort p f).attn = s.attn := by
  cases p <;> rfl

@[simp] theorem State.modPort_pending (s : State) (p : Port) (f : PortState → PortState) : (s.modPort p f).pending = s.pending := by
  cases p <;> rfl

@[simp] theorem State.modPort_port_self (s : State) (p : Port) (f : PortState → PortState) :
    (s.modPort p f).port p = f (s.port p) := by
  cases p <;> rfl

theorem State.modPort_port_other (s : State) (p q : Port) (f : PortState → PortState) (h : q ≠ p) :
    (s.modPort p f).port q = s.port q := by
  cases p <;> cases q <;> first | rfl | exact absurd rfl h

@[simp] theorem PortState.form_queue (q : PortState) (r : Reply) : (q.form r).queue = q.queue := rfl

@[simp] theorem PortState.form_replies (q : PortState) (r : Reply) : (q.form r).replies = q.replies ++ [r] := rfl

@[simp] theorem PortState.form_assembling (q : PortState) (r : Reply) : (q.form r).assembling = q.assembling := rfl

@[simp] theorem PortState.form_lastByte (q : PortState) (r : Reply) : (q.form r).lastByte = q.lastByte := rfl

/-! ## An answered request -/

@[simp] theorem State.answer_records (s : State) (p : Port) (f : Frame) (rest : List Frame) (r : Records) (a : Answer) : 
    (s.answer p f rest r a).records = r := by
  cases p <;> rfl

@[simp] theorem State.answer_transfer (s : State) (p : Port) (f : Frame) (rest : List Frame) (r : Records) (a : Answer) : 
    (s.answer p f rest r a).transfer = s.transfer := by
  cases p <;> rfl

@[simp] theorem State.answer_rateHigh (s : State) (p : Port) (f : Frame) (rest : List Frame) (r : Records) (a : Answer) : 
    (s.answer p f rest r a).rateHigh = s.rateHigh := by
  cases p <;> rfl

@[simp] theorem State.answer_resetLine (s : State) (p : Port) (f : Frame) (rest : List Frame) (r : Records) (a : Answer) : 
    (s.answer p f rest r a).resetLine = s.resetLine := by
  cases p <;> rfl

@[simp] theorem State.answer_pending (s : State) (p : Port) (f : Frame) (rest : List Frame) (r : Records) (a : Answer) : 
    (s.answer p f rest r a).pending = s.pending := by
  cases p <;> rfl

@[simp] theorem State.answer_holdLines (s : State) (p : Port) (f : Frame) (rest : List Frame) (r : Records) (a : Answer) : 
    (s.answer p f rest r a).holdLines = Vector.ofFn (fun c => (r.fleet.cars[c]).heldLine) := by
  cases p <;> rfl

@[simp] theorem State.answer_attn (s : State) (p : Port) (f : Frame) (rest : List Frame) (r : Records) (a : Answer) : 
    (s.answer p f rest r a).attn = r.fleet.attn := by
  cases p <;> rfl

@[simp] theorem State.answer_queue (s : State) (p : Port) (f : Frame) (rest : List Frame) (r : Records) (a : Answer) : 
    ((s.answer p f rest r a).port p).queue = rest := by
  cases p <;> rfl

@[simp] theorem State.answer_replies (s : State) (p : Port) (f : Frame) (rest : List Frame) (r : Records) (a : Answer) : 
    ((s.answer p f rest r a).port p).replies = (s.port p).replies ++ [replyTo f a] := by
  cases p <;> rfl

@[simp] theorem State.answer_assembling (s : State) (p : Port) (f : Frame) (rest : List Frame) (r : Records) (a : Answer) : 
    ((s.answer p f rest r a).port p).assembling = (s.port p).assembling := by
  cases p <;> rfl

theorem State.answer_other_port (s : State) (p : Port) (f : Frame) (rest : List Frame) (r : Records) (a : Answer) (q : Port) (h : q ≠ p) :
    (s.answer p f rest r a).port q = s.port q := by
  cases p <;> cases q <;> first | rfl | exact absurd rfl h

@[simp] theorem replyTo_station (f : Frame) (a : Answer) : (replyTo f a).station = f.station := rfl

@[simp] theorem replyTo_tag (f : Frame) (a : Answer) : (replyTo f a).tag = f.tag := rfl

@[simp] theorem replyTo_status (f : Frame) (a : Answer) : (replyTo f a).status = a.status := rfl

@[simp] theorem replyTo_body (f : Frame) (a : Answer) : (replyTo f a).body = a.body := rfl

@[simp] theorem replyTo_overflow (f : Frame) (a : Answer) : (replyTo f a).overflow = false := rfl

/-! ## Notices and record changes of the state -/

@[simp] theorem State.raise_openPort (s : State) (d : Detail) : (s.raise d).openPort = s.openPort := rfl

@[simp] theorem State.raise_assured (s : State) (d : Detail) : (s.raise d).assured = s.assured := rfl

@[simp] theorem State.raise_transfer (s : State) (d : Detail) : (s.raise d).transfer = s.transfer := rfl

@[simp] theorem State.raise_rateHigh (s : State) (d : Detail) : (s.raise d).rateHigh = s.rateHigh := rfl

@[simp] theorem State.raise_resetLine (s : State) (d : Detail) : (s.raise d).resetLine = s.resetLine := rfl

@[simp] theorem State.raise_holdLines (s : State) (d : Detail) : (s.raise d).holdLines = s.holdLines := rfl

@[simp] theorem State.raise_attn (s : State) (d : Detail) : (s.raise d).attn = s.attn := rfl

@[simp] theorem State.raise_pending (s : State) (d : Detail) : (s.raise d).pending = s.pending := rfl

@[simp] theorem State.raise_records (s : State) (d : Detail) : 
    (s.raise d).records = { s.records with fleet := s.records.fleet.raise d } := rfl

@[simp] theorem State.onRecords_openPort (s : State) (f : Records → Records) : (s.onRecords f).openPort = s.openPort := rfl

@[simp] theorem State.onRecords_assured (s : State) (f : Records → Records) : (s.onRecords f).assured = s.assured := rfl

@[simp] theorem State.onRecords_transfer (s : State) (f : Records → Records) : (s.onRecords f).transfer = s.transfer := rfl

@[simp] theorem State.onRecords_rateHigh (s : State) (f : Records → Records) : (s.onRecords f).rateHigh = s.rateHigh := rfl

@[simp] theorem State.onRecords_resetLine (s : State) (f : Records → Records) : (s.onRecords f).resetLine = s.resetLine := rfl

@[simp] theorem State.onRecords_pending (s : State) (f : Records → Records) : (s.onRecords f).pending = s.pending := rfl

@[simp] theorem State.onRecords_records (s : State) (f : Records → Records) : (s.onRecords f).records = f s.records := rfl

@[simp] theorem State.onRecords_port (s : State) (f : Records → Records) (p : Port) : (s.onRecords f).port p = s.port p := by
  cases p <;> rfl

/-! ## Records -/

@[simp] theorem Records.withFleet_world (r : Records) (F : Fleet) : (r.withFleet F).world = r.world := rfl

@[simp] theorem Records.withFleet_unstated (r : Records) (F : Fleet) : (r.withFleet F).unstated = r.unstated := rfl

@[simp] theorem Records.withWorld_fleet (r : Records) (W : World) : (r.withWorld W).fleet = r.fleet := rfl

@[simp] theorem Records.withWorld_unstated (r : Records) (W : World) : (r.withWorld W).unstated = r.unstated := rfl

@[simp] theorem Records.withMap_fleet (r : Records) (m : TrackMap) : (r.withMap m).fleet = r.fleet := rfl

@[simp] theorem Records.withMap_unstated (r : Records) (m : TrackMap) : (r.withMap m).unstated = r.unstated := rfl

@[simp] theorem Records.setWind_fleet (r : Records) (f : Wind → Wind) : (r.setWind f).fleet = r.fleet := rfl

@[simp] theorem Records.setWind_unstated (r : Records) (f : Wind → Wind) : (r.setWind f).unstated = r.unstated := rfl

@[simp] theorem Records.withFleet_fleet (r : Records) (F : Fleet) : (r.withFleet F).fleet = F := rfl

@[simp] theorem Records.withWorld_world (r : Records) (W : World) : (r.withWorld W).world = W := rfl

@[simp] theorem Records.withMap_now (r : Records) (m : TrackMap) : (r.withMap m).world.now = r.world.now := rfl

@[simp] theorem Records.withMap_map (r : Records) (m : TrackMap) : (r.withMap m).world.map = m := rfl

@[simp] theorem Records.withMap_conditions (r : Records) (m : TrackMap) : (r.withMap m).world.conditions = r.world.conditions := rfl

@[simp] theorem Records.withMap_wind (r : Records) (m : TrackMap) : (r.withMap m).world.wind = r.world.wind := rfl

@[simp] theorem Records.withMap_windows (r : Records) (m : TrackMap) : (r.withMap m).world.windows = r.world.windows := rfl

@[simp] theorem Records.withMap_keyPresent (r : Records) (m : TrackMap) : (r.withMap m).world.keyPresent = r.world.keyPresent := rfl

@[simp] theorem Records.withMap_estopLine (r : Records) (m : TrackMap) : (r.withMap m).world.estopLine = r.world.estopLine := rfl

@[simp] theorem Records.setWind_now (r : Records) (f : Wind → Wind) : (r.setWind f).world.now = r.world.now := rfl

@[simp] theorem Records.setWind_map (r : Records) (f : Wind → Wind) : (r.setWind f).world.map = r.world.map := rfl

@[simp] theorem Records.setWind_conditions (r : Records) (f : Wind → Wind) : (r.setWind f).world.conditions = r.world.conditions := rfl

@[simp] theorem Records.setWind_wind (r : Records) (f : Wind → Wind) : (r.setWind f).world.wind = f r.world.wind := rfl

@[simp] theorem Records.setWind_windows (r : Records) (f : Wind → Wind) : (r.setWind f).world.windows = r.world.windows := rfl

@[simp] theorem Records.setWind_keyPresent (r : Records) (f : Wind → Wind) : (r.setWind f).world.keyPresent = r.world.keyPresent := rfl

@[simp] theorem Records.setWind_estopLine (r : Records) (f : Wind → Wind) : (r.setWind f).world.estopLine = r.world.estopLine := rfl

@[simp] theorem Records.withWind_now (r : Records) (w : Wind) : (r.withWind w).world.now = r.world.now := rfl

@[simp] theorem Records.withWind_map (r : Records) (w : Wind) : (r.withWind w).world.map = r.world.map := rfl

@[simp] theorem Records.withWind_conditions (r : Records) (w : Wind) : (r.withWind w).world.conditions = r.world.conditions := rfl

@[simp] theorem Records.withWind_wind (r : Records) (w : Wind) : (r.withWind w).world.wind = w := rfl

@[simp] theorem Records.withWind_windows (r : Records) (w : Wind) : (r.withWind w).world.windows = r.world.windows := rfl

@[simp] theorem Records.withWind_keyPresent (r : Records) (w : Wind) : (r.withWind w).world.keyPresent = r.world.keyPresent := rfl

@[simp] theorem Records.withWind_estopLine (r : Records) (w : Wind) : (r.withWind w).world.estopLine = r.world.estopLine := rfl

@[simp] theorem Records.withWind_unstated (r : Records) (w : Wind) : (r.withWind w).unstated = r.unstated := rfl

/-! ## The fleet -/

@[simp] theorem Fleet.modCar_slots (F : Fleet) (c : CarId) (f : Carriage → Carriage) : (F.modCar c f).slots = F.slots := rfl

@[simp] theorem Fleet.modCar_occupancy (F : Fleet) (c : CarId) (f : Carriage → Carriage) : (F.modCar c f).occupancy = F.occupancy := rfl

@[simp] theorem Fleet.modCar_holders (F : Fleet) (c : CarId) (f : Carriage → Carriage) : (F.modCar c f).holders = F.holders := rfl

@[simp] theorem Fleet.modCar_notices (F : Fleet) (c : CarId) (f : Carriage → Carriage) : (F.modCar c f).notices = F.notices := rfl

@[simp] theorem Fleet.addHold_slots (F : Fleet) (c : CarId) (x : Cause) : (F.addHold c x).slots = F.slots := rfl

@[simp] theorem Fleet.addHold_occupancy (F : Fleet) (c : CarId) (x : Cause) : (F.addHold c x).occupancy = F.occupancy := rfl

@[simp] theorem Fleet.addHold_holders (F : Fleet) (c : CarId) (x : Cause) : (F.addHold c x).holders = F.holders := rfl

@[simp] theorem Fleet.addHold_notices (F : Fleet) (c : CarId) (x : Cause) : (F.addHold c x).notices = F.notices := rfl

@[simp] theorem Fleet.removeHold_slots (F : Fleet) (c : CarId) (x : Cause) : (F.removeHold c x).slots = F.slots := rfl

@[simp] theorem Fleet.removeHold_occupancy (F : Fleet) (c : CarId) (x : Cause) : (F.removeHold c x).occupancy = F.occupancy := rfl

@[simp] theorem Fleet.removeHold_holders (F : Fleet) (c : CarId) (x : Cause) : (F.removeHold c x).holders = F.holders := rfl

@[simp] theorem Fleet.removeHold_notices (F : Fleet) (c : CarId) (x : Cause) : (F.removeHold c x).notices = F.notices := rfl

@[simp] theorem Fleet.addHoldAll_slots (F : Fleet) (x : Cause) : (F.addHoldAll x).slots = F.slots := rfl

@[simp] theorem Fleet.addHoldAll_occupancy (F : Fleet) (x : Cause) : (F.addHoldAll x).occupancy = F.occupancy := rfl

@[simp] theorem Fleet.addHoldAll_holders (F : Fleet) (x : Cause) : (F.addHoldAll x).holders = F.holders := rfl

@[simp] theorem Fleet.addHoldAll_notices (F : Fleet) (x : Cause) : (F.addHoldAll x).notices = F.notices := rfl

@[simp] theorem Fleet.raise_cars (F : Fleet) (d : Detail) : (F.raise d).cars = F.cars := rfl

@[simp] theorem Fleet.raise_slots (F : Fleet) (d : Detail) : (F.raise d).slots = F.slots := rfl

@[simp] theorem Fleet.raise_occupancy (F : Fleet) (d : Detail) : (F.raise d).occupancy = F.occupancy := rfl

@[simp] theorem Fleet.raise_holders (F : Fleet) (d : Detail) : (F.raise d).holders = F.holders := rfl

@[simp] theorem Fleet.putWarrant_cars (F : Fleet) (i : SlotId) (w : Option Warrant) : (F.putWarrant i w).cars = F.cars := rfl

@[simp] theorem Fleet.putWarrant_occupancy (F : Fleet) (i : SlotId) (w : Option Warrant) : (F.putWarrant i w).occupancy = F.occupancy := rfl

@[simp] theorem Fleet.putWarrant_holders (F : Fleet) (i : SlotId) (w : Option Warrant) : (F.putWarrant i w).holders = F.holders := rfl

@[simp] theorem Fleet.putWarrant_notices (F : Fleet) (i : SlotId) (w : Option Warrant) : (F.putWarrant i w).notices = F.notices := rfl

@[simp] theorem Fleet.modWarrant_cars (F : Fleet) (i : SlotId) (f : Warrant → Warrant) : (F.modWarrant i f).cars = F.cars := rfl

@[simp] theorem Fleet.modWarrant_occupancy (F : Fleet) (i : SlotId) (f : Warrant → Warrant) : (F.modWarrant i f).occupancy = F.occupancy := rfl

@[simp] theorem Fleet.modWarrant_holders (F : Fleet) (i : SlotId) (f : Warrant → Warrant) : (F.modWarrant i f).holders = F.holders := rfl

@[simp] theorem Fleet.modWarrant_notices (F : Fleet) (i : SlotId) (f : Warrant → Warrant) : (F.modWarrant i f).notices = F.notices := rfl

@[simp] theorem Fleet.dropEntry_cars (F : Fleet) (r : RunId) (i : SlotId) : (F.dropEntry r i).cars = F.cars := rfl

@[simp] theorem Fleet.dropEntry_slots (F : Fleet) (r : RunId) (i : SlotId) : (F.dropEntry r i).slots = F.slots := rfl

@[simp] theorem Fleet.dropEntry_holders (F : Fleet) (r : RunId) (i : SlotId) : (F.dropEntry r i).holders = F.holders := rfl

@[simp] theorem Fleet.dropEntry_notices (F : Fleet) (r : RunId) (i : SlotId) : (F.dropEntry r i).notices = F.notices := rfl

@[simp] theorem Fleet.clearHolders_cars (F : Fleet)  : (F.clearHolders).cars = F.cars := rfl

@[simp] theorem Fleet.clearHolders_slots (F : Fleet)  : (F.clearHolders).slots = F.slots := rfl

@[simp] theorem Fleet.clearHolders_occupancy (F : Fleet)  : (F.clearHolders).occupancy = F.occupancy := rfl

@[simp] theorem Fleet.clearHolders_notices (F : Fleet)  : (F.clearHolders).notices = F.notices := rfl

@[simp] theorem Fleet.putEntry_cars (W : World) (F : Fleet) (i : SlotId) (w : Warrant) : (F.putEntry W i w).cars = F.cars := rfl

@[simp] theorem Fleet.putEntry_slots (W : World) (F : Fleet) (i : SlotId) (w : Warrant) : (F.putEntry W i w).slots = F.slots := rfl

@[simp] theorem Fleet.putEntry_holders (W : World) (F : Fleet) (i : SlotId) (w : Warrant) : (F.putEntry W i w).holders = F.holders := rfl

@[simp] theorem Fleet.putEntry_notices (W : World) (F : Fleet) (i : SlotId) (w : Warrant) : (F.putEntry W i w).notices = F.notices := rfl

@[simp] theorem rezone_cars (W : World) (F : Fleet) (c : CarId) : (rezone W F c).cars = F.cars := by
  unfold rezone; split <;> rfl

@[simp] theorem rezone_slots (W : World) (F : Fleet) (c : CarId) : (rezone W F c).slots = F.slots := by
  unfold rezone; split <;> rfl

@[simp] theorem rezone_occupancy (W : World) (F : Fleet) (c : CarId) : (rezone W F c).occupancy = F.occupancy := by
  unfold rezone; split <;> rfl

@[simp] theorem rezone_notices (W : World) (F : Fleet) (c : CarId) : (rezone W F c).notices = F.notices := by
  unfold rezone; split <;> rfl

@[simp] theorem resettle_cars (W : World) (F : Fleet) (i : SlotId) : (resettle W F i).cars = F.cars := by
  unfold resettle; split <;> simp

@[simp] theorem resettle_slots (W : World) (F : Fleet) (i : SlotId) : (resettle W F i).slots = F.slots := by
  unfold resettle; split <;> simp

@[simp] theorem resettle_notices (W : World) (F : Fleet) (i : SlotId) : (resettle W F i).notices = F.notices := by
  unfold resettle; split <;> simp

@[simp] theorem receiling_cars (W : World) (F : Fleet) (i : SlotId) : (receiling W F i).cars = F.cars := by
  unfold receiling; split <;> rfl

@[simp] theorem receiling_occupancy (W : World) (F : Fleet) (i : SlotId) : (receiling W F i).occupancy = F.occupancy := by
  unfold receiling; split <;> rfl

@[simp] theorem receiling_holders (W : World) (F : Fleet) (i : SlotId) : (receiling W F i).holders = F.holders := by
  unfold receiling; split <;> rfl

@[simp] theorem receiling_notices (W : World) (F : Fleet) (i : SlotId) : (receiling W F i).notices = F.notices := by
  unfold receiling; split <;> rfl

@[simp] theorem refront_slots (F : Fleet) (c : CarId) : (refront F c).slots = F.slots := rfl

@[simp] theorem refront_occupancy (F : Fleet) (c : CarId) : (refront F c).occupancy = F.occupancy := rfl

@[simp] theorem refront_holders (F : Fleet) (c : CarId) : (refront F c).holders = F.holders := rfl

@[simp] theorem refront_notices (F : Fleet) (c : CarId) : (refront F c).notices = F.notices := rfl

end Sys2Proof.Machine
end

