-- ==== Sys2Proof/Laws/Fleet.lean ====
section
/-! SUPPORT. What the shared operations over carriages, slots, occupancy lists, holders, hold sets and notices do,
said once for each. -/

namespace Sys2Proof.Machine

/-! ## Carriage records -/

theorem Fleet.modCar_get (F : Fleet) (c d : CarId) (f : Carriage → Carriage) :
    (F.modCar c f).cars[d] = if d = c then f F.cars[c] else F.cars[d] := by
  by_cases h : d = c
  · subst h; simp [Fleet.modCar]
  · have : (c : Nat) ≠ (d : Nat) := fun e => h (Fin.ext e.symm)
    simp [Fleet.modCar, h, this]

@[simp] theorem Fleet.modCar_get_self (F : Fleet) (c : CarId) (f : Carriage → Carriage) :
    (F.modCar c f).cars[c] = f F.cars[c] := by
  rw [Fleet.modCar_get, if_pos rfl]

theorem Fleet.modCar_get_other (F : Fleet) {c d : CarId} (f : Carriage → Carriage) (h : d ≠ c) :
    (F.modCar c f).cars[d] = F.cars[d] := by
  rw [Fleet.modCar_get, if_neg h]

theorem Fleet.modCar_modCar (F : Fleet) (c : CarId) (f g : Carriage → Carriage) :
    (F.modCar c f).modCar c g = F.modCar c (fun k => g (f k)) := by
  simp [Fleet.modCar]

theorem Fleet.addHoldAll_get (F : Fleet) (x : Cause) (c : CarId) :
    (F.addHoldAll x).cars[c] =
      if (F.cars[c]).configured then { F.cars[c] with holds := (F.cars[c]).holds.add x } else F.cars[c] := by
  simp [Fleet.addHoldAll]

/-- A braking front recomputed is that of the last report, and changes nothing else. -/
theorem refront_get (F : Fleet) (c d : CarId) :
    (refront F c).cars[d] = if d = c then { F.cars[c] with front := F.frontNow c } else F.cars[d] := by
  simp only [refront, Fleet.modCar_get]

/-! ## Hold sets (R149) -/

/-- Adding a cause puts it in and leaves every other as it was. -/
theorem HoldSet.has_add (h : HoldSet) (x y : Cause) : (h.add x).has y = (decide (y = x) || h.has y) := by
  cases x <;> cases y <;> simp [HoldSet.add, HoldSet.put, HoldSet.has]

/-- Removing a cause takes it out and leaves every other as it was. -/
theorem HoldSet.has_remove (h : HoldSet) (x y : Cause) : (h.remove x).has y = (decide (y ≠ x) && h.has y) := by
  cases x <;> cases y <;> simp [HoldSet.remove, HoldSet.put, HoldSet.has]

/-- A hold set is empty when it has no cause. -/
theorem HoldSet.isEmpty_iff (h : HoldSet) : h.isEmpty = true ↔ ∀ x, h.has x = false := by
  constructor
  · intro e x
    cases x <;> simp_all [HoldSet.isEmpty, HoldSet.has]
  · intro e
    have h1 := e .trip
    have h2 := e .mute
    have h3 := e .estop
    have h4 := e .openHold
    have h5 := e .assuredHold
    have h6 := e .reversal
    have h7 := e .keyLost
    simp_all [HoldSet.isEmpty, HoldSet.has]

theorem HoldSet.add_not_empty (h : HoldSet) (x : Cause) : (h.add x).isEmpty = false := by
  cases x <;> simp [HoldSet.add, HoldSet.put, HoldSet.isEmpty]

@[simp] theorem HoldSet.add_add (h : HoldSet) (x : Cause) : (h.add x).add x = h.add x := by cases x <;> rfl

@[simp] theorem HoldSet.remove_remove (h : HoldSet) (x : Cause) : (h.remove x).remove x = h.remove x := by
  cases x <;> rfl

/-- The line of a carriage whose hold set gains a cause is asserted (R150). -/
theorem Carriage.heldLine_of_add (k : Carriage) (x : Cause) :
    ({ k with holds := k.holds.add x } : Carriage).heldLine = true := by
  simp [Carriage.heldLine, HoldSet.add_not_empty]

/-! ## Slots and handles (R64) -/

theorem Fleet.putWarrant_get (F : Fleet) (i j : SlotId) (w : Option Warrant) :
    (F.putWarrant i w).slots[j] = if j = i then { F.slots[i] with warrant := w } else F.slots[j] := by
  by_cases h : j = i
  · subst h; simp [Fleet.putWarrant]
  · have : (i : Nat) ≠ (j : Nat) := fun e => h (Fin.ext e.symm)
    simp [Fleet.putWarrant, h, this]

theorem Fleet.modWarrant_get (F : Fleet) (i j : SlotId) (f : Warrant → Warrant) :
    (F.modWarrant i f).slots[j] =
      if j = i then { F.slots[i] with warrant := (F.slots[i]).warrant.map f } else F.slots[j] :=
  F.putWarrant_get i j _

/-- Writing a warrant keeps every generation counter (R64). -/
@[simp] theorem Fleet.putWarrant_generation (F : Fleet) (i j : SlotId) (w : Option Warrant) :
    ((F.putWarrant i w).slots[j]).generation = (F.slots[j]).generation := by
  rw [Fleet.putWarrant_get]; split <;> simp_all

@[simp] theorem Fleet.putWarrant_handleOf (F : Fleet) (i j : SlotId) (w : Option Warrant) :
    (F.putWarrant i w).handleOf j = F.handleOf j := by
  simp only [Fleet.handleOf, Fleet.putWarrant_generation]

@[simp] theorem Fleet.modWarrant_handleOf (F : Fleet) (i j : SlotId) (f : Warrant → Warrant) :
    (F.modWarrant i f).handleOf j = F.handleOf j :=
  F.putWarrant_handleOf i j _

/-- A handle is live exactly when it is the handle of its slot and the slot holds the warrant (R64). -/
theorem Fleet.live_eq_some_iff (F : Fleet) (h : Handle) (w : Warrant) :
    F.live h = some w ↔ h = F.handleOf h.slot ∧ (F.slots[h.slot]).warrant = some w := by
  unfold Fleet.live Fleet.handleOf
  constructor
  · intro e
    split at e
    · rename_i g
      refine ⟨?_, e⟩
      cases h
      simp only at g
      simp only [g]
    · exact absurd e (by simp)
  · intro e
    rw [if_pos (by rw [e.1]), e.2]

theorem Fleet.live_handleOf (F : Fleet) (i : SlotId) : F.live (F.handleOf i) = (F.slots[i]).warrant := by
  simp [Fleet.live, Fleet.handleOf]

/-- The slot that an `ask` is issued is free (R64). -/
theorem Fleet.freeSlot_free (F : Fleet) (i : SlotId) (h : F.freeSlot = some i) : (F.slots[i]).warrant = none := by
  have := List.find?_some h
  exact Option.isNone_iff_eq_none.mp this

/-! ## Notices (R166) -/

/-- An occurrence changes the record of its own kind and no other. -/
theorem Fleet.raise_get (F : Fleet) (d : Detail) (k : Fin 15) :
    (F.raise d).notices[k] = if k = d.value.kind then (F.notices[k]).occur d else F.notices[k] := by
  by_cases h : k = d.value.kind
  · subst h; simp [Fleet.raise]
  · have : (d.value.kind : Nat) ≠ (k : Nat) := fun e => h (Fin.ext e.symm)
    simp [Fleet.raise, h, this]

/-- An occurrence keeps a count at 255 or less (R166). -/
theorem Notice.occur_count_le (n : Notice) (d : Detail) : (n.occur d).count ≤ 255 := Nat.min_le_left _ _

/-! ## Occupancy lists (R67) and holders (R39) -/

theorem Fleet.dropEntry_get (F : Fleet) (r q : RunId) (i : SlotId) :
    (F.dropEntry r i).occupancy[q] =
      if q = r then (F.occupancy[r]).filter (fun e => e.handle.slot != i) else F.occupancy[q] := by
  by_cases h : q = r
  · subst h; simp [Fleet.dropEntry]
  · have : (r : Nat) ≠ (q : Nat) := fun e => h (Fin.ext e.symm)
    simp [Fleet.dropEntry, h, this]

/-- What an entry placed in order makes of a list: the entry and the list's own, nothing else. -/
theorem mem_insertEntry (e x : Entry) (es : List Entry) : x ∈ insertEntry e es ↔ x = e ∨ x ∈ es := by
  induction es with
  | nil => simp [insertEntry]
  | cons y ys ih =>
    unfold insertEntry
    split
    · simp
    · simp [ih, or_left_comm]

/-- Recomputing holdings gives a zone to the carriage, takes it away, or leaves it (R39). -/
theorem rezone_holder (W : World) (F : Fleet) (c : CarId) (z : ZoneId) :
    (rezone W F c).holders[z] = F.holders[z] ∨
      (F.holders[z] = some c ∧ z ∉ reachedZones W F c ∧ (rezone W F c).holders[z] = none) ∨
      (F.holders[z] = none ∧ z ∈ reachedZones W F c ∧ (rezone W F c).holders[z] = some c) := by
  unfold rezone
  split
  · simp only [Fin.getElem_fin, Vector.getElem_ofFn, Fin.eta]
    cases h : F.holders[z.val] with
    | none => by_cases hz : z ∈ reachedZones W F c <;> simp [hz]
    | some d =>
      by_cases hd : d = c <;> by_cases hz : z ∈ reachedZones W F c <;> simp [hd, hz]
  · exact .inl rfl

end Sys2Proof.Machine
end

