-- ==== Sys2Proof/Laws/PerInstr.lean ====
section
/-! SUPPORT. The statements made for each command: a request's code, on its port and with a body of its kind, names
the request and nothing else (chapter 10.5). -/

namespace Sys2Proof.Laws.Requested

/-- The body is of the command's kind: `setbay` and `setcar` are two commands each, told apart by one byte (R14, R26). -/
def kindFits : Instr → List Byte → Prop
  | .setbay _, body => truncateBody body = false
  | .setbayTruncate _, body => truncateBody body = true
  | .setcar _, body => configuredNoBody body = false
  | .setcarConfiguredNo _, body => configuredNoBody body = true
  | _, _ => True

/-- The command's code and port, with a body of its kind, give the command back; a command without a code is no
request. -/
def Statement (i : Instr) : Prop :=
  ∀ (p : Port) (code : Byte) (body : List Byte), i.request = some (p, code) → kindFits i body → commandOf p code body = i

theorem powerOn (pins : Pins) : Statement (.powerOn pins) := by
  intro p code body e _
  cases e

theorem resetAsserted : Statement .resetAsserted := by
  intro p code body e _
  cases e

theorem frameReceived (p : Port) (bytes : List Byte) : Statement (.frameReceived p bytes) := by
  intro p code body e _
  cases e

theorem frameLengthFault (p : Port) (n : Byte) : Statement (.frameLengthFault p n) := by
  intro p code body e _
  cases e

theorem characterGapExpiry (cause : ShortCause) : Statement (.characterGapExpiry cause) := by
  intro p code body e _
  cases e

theorem assuredTransferEnd : Statement .assuredTransferEnd := by
  intro p code body e _
  cases e

theorem replySent (q : Port) : Statement (.replySent q) := by
  intro p code body e _
  cases e

theorem report (q : Port) : Statement (.report q) := by
  intro p code body e _
  cases e
  rfl

theorem ask (q : Port) : Statement (.ask q) := by
  intro p code body e _
  cases e
  rfl

theorem extend (q : Port) : Statement (.extend q) := by
  intro p code body e _
  cases e
  rfl

theorem trim (q : Port) : Statement (.trim q) := by
  intro p code body e _
  cases e
  rfl

theorem release (q : Port) : Statement (.release q) := by
  intro p code body e _
  cases e
  rfl

theorem confirm (q : Port) : Statement (.confirm q) := by
  intro p code body e _
  cases e
  rfl

theorem hold (q : Port) : Statement (.hold q) := by
  intro p code body e _
  cases e
  rfl

theorem unhold (q : Port) : Statement (.unhold q) := by
  intro p code body e _
  cases e
  rfl

theorem clear (q : Port) : Statement (.clear q) := by
  intro p code body e _
  cases e
  rfl

theorem wind (q : Port) : Statement (.wind q) := by
  intro p code body e _
  cases e
  rfl

theorem peek (q : Port) : Statement (.peek q) := by
  intro p code body e _
  cases e
  rfl

theorem notices (q : Port) : Statement (.notices q) := by
  intro p code body e _
  cases e
  rfl

theorem marks (q : Port) : Statement (.marks q) := by
  intro p code body e _
  cases e
  rfl

theorem setrun (q : Port) : Statement (.setrun q) := by
  intro p code body e _
  cases e
  rfl

theorem setbay (q : Port) : Statement (.setbay q) := by
  intro p code body e h
  cases e
  simp_all [kindFits, commandOf]

theorem setbayTruncate (q : Port) : Statement (.setbayTruncate q) := by
  intro p code body e h
  cases e
  simp_all [kindFits, commandOf]

theorem setzone (q : Port) : Statement (.setzone q) := by
  intro p code body e _
  cases e
  rfl

theorem setcar (q : Port) : Statement (.setcar q) := by
  intro p code body e h
  cases e
  simp_all [kindFits, commandOf]

theorem setcarConfiguredNo (q : Port) : Statement (.setcarConfiguredNo q) := by
  intro p code body e h
  cases e
  simp_all [kindFits, commandOf]

theorem lock (q : Port) : Statement (.lock q) := by
  intro p code body e _
  cases e
  rfl

theorem unlock (q : Port) : Statement (.unlock q) := by
  intro p code body e _
  cases e
  rfl

theorem service (q : Port) : Statement (.service q) := by
  intro p code body e _
  cases e
  rfl

theorem ceiling (q : Port) : Statement (.ceiling q) := by
  intro p code body e _
  cases e
  rfl

theorem setwind (q : Port) : Statement (.setwind q) := by
  intro p code body e _
  cases e
  rfl

theorem cond (q : Port) : Statement (.cond q) := by
  intro p code body e _
  cases e
  rfl

theorem mask (q : Port) : Statement (.mask q) := by
  intro p code body e _
  cases e
  rfl

theorem maint (q : Port) : Statement (.maint q) := by
  intro p code body e _
  cases e
  rfl

theorem endmaint (q : Port) : Statement (.endmaint q) := by
  intro p code body e _
  cases e
  rfl

theorem restore (q : Port) : Statement (.restore q) := by
  intro p code body e _
  cases e
  rfl

theorem restart (q : Port) : Statement (.restart q) := by
  intro p code body e _
  cases e
  rfl

theorem estopAsserted : Statement .estopAsserted := by
  intro p code body e _
  cases e

theorem estopReleased : Statement .estopReleased := by
  intro p code body e _
  cases e

theorem maintKeyReleased : Statement .maintKeyReleased := by
  intro p code body e _
  cases e

theorem maintKeyAsserted : Statement .maintKeyAsserted := by
  intro p code body e _
  cases e

theorem stormAsserted : Statement .stormAsserted := by
  intro p code body e _
  cases e

theorem stormReleased : Statement .stormReleased := by
  intro p code body e _
  cases e

theorem condLineChange (n : Fin 8) (asserted : Bool) : Statement (.condLineChange n asserted) := by
  intro p code body e _
  cases e

theorem muteExpiry (c : Fin 16) : Statement (.muteExpiry c) := by
  intro p code body e _
  cases e

theorem warrantExpiry (slot : Fin 48) : Statement (.warrantExpiry slot) := by
  intro p code body e _
  cases e

theorem windTimeout : Statement .windTimeout := by
  intro p code body e _
  cases e

theorem byteReceived (p : Port) (b : Byte) : Statement (.byteReceived p b) := by
  intro p code body e _
  cases e

theorem selAsserted : Statement .selAsserted := by
  intro p code body e _
  cases e

theorem unknownRequestCode (q : Port) : Statement (.unknownRequestCode q) := by
  intro p code body e _
  cases e

theorem tick : Statement .tick := by
  intro p code body e _
  cases e

end Sys2Proof.Laws.Requested
end

