-- ==== Sys2Proof/Laws/Requests.lean ====
section
/-! SUPPORT. How a request takes effect (R175), said once for every request: what `serve`, `judge` and the map and port
checks answer. -/

namespace Sys2Proof.Machine

/-! ## The oldest frame takes effect -/

/-- An offered request is answered with what its act gives on the records. -/
theorem serve_of_offered {s : State} {i : Instr} {p : Port} {f : Frame} {rest : List Frame}
    (h : Offered s i p f rest) (act : Frame → Records → Records × Answer) :
    serve i p act s = s.answer p f rest (act f s.records).1 (act f s.records).2 := by
  simp [serve, h.released, h.front, h.names]

/-- All that serving a request can do: nothing, or the answer to the oldest frame. -/
theorem serve_cases (i : Instr) (p : Port) (act : Frame → Records → Records × Answer) (s : State) :
    serve i p act s = s ∨
      ∃ f rest, s.resetLine = false ∧ (s.port p).queue = f :: rest ∧ commandOf p f.code f.body = i ∧
        serve i p act s = s.answer p f rest (act f s.records).1 (act f s.records).2 := by
  unfold serve
  split
  · exact .inl rfl
  · rename_i hr
    split
    · exact .inl rfl
    · rename_i f rest hq
      split
      · rename_i hn
        exact .inr ⟨f, rest, by simpa using hr, hq, hn, rfl⟩
      · exact .inl rfl

/-- A body of the right form, from a station that may send, comes under the request's own rule. -/
theorem judge_of_decode {α : Type} {s : State} {i : Instr} {p : Port} {f : Frame} {rest : List Frame}
    (h : Offered s i p f rest) {decode : List Byte → Option α} {x : α} (hx : decode f.body = some x)
    (rule : Origin → α → Records → Records × Answer) (r : Records) :
    judge decode rule p f r = rule (originOf p f.station) x r := by
  have hs : ¬(p = .openPort ∧ 63 < f.station.toNat) := fun e => absurd (h.station e.1) (by omega)
  simp [judge, hx, hs]

/-- A body of the wrong form is refused BAD_FORM and changes nothing. -/
theorem judge_of_malformed {α : Type} {decode : List Byte → Option α} {f : Frame} (hx : decode f.body = none)
    (rule : Origin → α → Records → Records × Answer) (p : Port) (r : Records) :
    judge decode rule p f r = (r, plain .badForm) := by
  simp [judge, hx]

/-- All that judging a request can do: refuse it BAD_FORM, or apply its rule. -/
theorem judge_cases {α : Type} (decode : List Byte → Option α) (rule : Origin → α → Records → Records × Answer)
    (p : Port) (f : Frame) (r : Records) :
    judge decode rule p f r = (r, plain .badForm) ∨
      ∃ x, decode f.body = some x ∧ judge decode rule p f r = rule (originOf p f.station) x r := by
  unfold judge
  split
  · exact .inl rfl
  · rename_i x hx
    split
    · exact .inl rfl
    · exact .inr ⟨x, hx, rfl⟩

/-! ## Checks several requests share -/

/-- A request of the Assured Port alone comes under its rule there (R11). -/
@[simp] theorem assuredOnly_assured (r : Records) (rest : Records × Answer) : assuredOnly .assured r rest = rest := rfl

/-- A request of the Assured Port alone is refused on the Open Port (R11). -/
@[simp] theorem assuredOnly_open (st : Byte) (r : Records) (rest : Records × Answer) :
    assuredOnly (.openPort st) r rest = (r, plain .portDenied) := rfl

theorem lockFirst_locked {r : Records} (h : r.world.map.locked = true) (rest : Records × Answer) :
    lockFirst r rest = (r, plain .locked) := by
  simp [lockFirst, h]

theorem lockFirst_unlocked {r : Records} (h : r.world.map.locked = false) (rest : Records × Answer) :
    lockFirst r rest = rest := by
  simp [lockFirst, h]

/-- A number below the size of a table names its member. -/
theorem inTable_of_lt {n k : Nat} (h : k < n) : inTable n k = some ⟨k, h⟩ := by simp [inTable, h]

/-- A number at or above the size of a table names nothing. -/
theorem inTable_of_ge {n k : Nat} (h : n ≤ k) : inTable n k = none := by simp [inTable, Nat.not_lt.mpr h]

@[simp] theorem inTable_val {n : Nat} (i : Fin n) : inTable n i.val = some i := by simp [inTable]

/-- All that a request naming a handle can do: a refusal with the records kept, or its own rule on a live warrant that
the origin owns (R76). -/
theorem withHandle_cases (o : Origin) (slot generation point : Nat) (r : Records)
    (k : SlotId → Warrant → Records × Answer) :
    (∃ st, withHandle o slot generation point r k = (r, plain st)) ∨
      ∃ i w, inTable 48 slot = some i ∧
        r.fleet.live { slot := i, generation := BitVec.ofNat 8 generation } = some w ∧ owns o w = true ∧
        withHandle o slot generation point r k = k i w := by
  unfold withHandle
  split
  · exact .inl ⟨_, rfl⟩
  · rename_i i hi
    split
    · exact .inl ⟨_, rfl⟩
    · split
      · exact .inl ⟨_, rfl⟩
      · rename_i w hw
        split
        · rename_i ho
          exact .inr ⟨i, w, hi, hw, ho, rfl⟩
        · exact .inl ⟨_, rfl⟩

/-- All that a request naming a bay can do: a refusal with the records kept, or its own rule on the bay (R16, R17). -/
theorem withBay_cases (r : Records) (run bay : Nat) (k : RunId → Bay → Records × Answer) :
    (∃ st, withBay r run bay k = (r, plain st)) ∨
      ∃ i b, inTable 8 run = some i ∧ (r.world.map.runs[i]).defined = true ∧ (r.world.map.runs[i]).bay bay = some b ∧
        withBay r run bay k = k i b := by
  unfold withBay
  split
  · exact .inl ⟨_, rfl⟩
  · rename_i i hi
    split
    · exact .inl ⟨_, rfl⟩
    · simp only []
      split
      · exact .inl ⟨.inUse, rfl⟩
      · rename_i b hb
        split at hb
        · rename_i hd
          exact .inr ⟨i, b, hi, hd, hb, rfl⟩
        · exact absurd hb (by simp)

/-- A `release` cuts and marks exactly the ACTIVE warrant, and the marked GRANTED one when the carriage is not mute, of a
carriage whose last report was above standstill (R86, R100, R101). -/
theorem stopsFirst_iff (F : Fleet) (w : Warrant) :
    stopsFirst F w = true ↔ 5 < (F.cars[w.carriage]).lastV ∧
      (w.state = .active ∨ (w.state = .granted ∧ w.retireOnStop ≠ none ∧ (F.cars[w.carriage]).mute = false)) := by
  simp [stopsFirst, standstill, Option.isSome_iff_ne_none, and_assoc]

/-- All that a cut to front without a mark can do: nothing when the limit is kept, else a shortening and its CUT_BACK
(R111). -/
theorem cutFront_cases (W : World) (source : CutSource) (F : Fleet) (i : SlotId) (w : Warrant) :
    (cutLimit W F w = w.limit ∧ cutFront W source F i w = F) ∨
      (cutLimit W F w ≠ w.limit ∧ cutFront W source F i w = (shorten W F i (cutLimit W F w)).raise
        { carriage := some w.carriage, handle := some (F.handleOf i), value := .cutBack source }) := by
  by_cases h : cutLimit W F w = w.limit
  · exact .inl ⟨h, by simp [cutFront, h]⟩
  · exact .inr ⟨h, by simp [cutFront, h, raiseCuts]⟩

/-! ## The lines follow the records (R150, R167) -/

/-- Whatever the records, the lines driven by them keep the law. -/
theorem State.drive_lineLaw (s : State) : s.drive.lineLaw := by
  refine ⟨fun c => ?_, rfl⟩
  simp

/-- An answered request leaves the lines as the records say. -/
theorem State.answer_lineLaw (s : State) (p : Port) (f : Frame) (rest : List Frame) (r : Records) (a : Answer) :
    (s.answer p f rest r a).lineLaw :=
  State.drive_lineLaw _

end Sys2Proof.Machine
end

