-- ==== Sys2Proof/Laws/Ports.lean ====
section
/-! SUPPORT. What the operations of the ports do: the end of a frame that outlasted its gap, the bytes clocked in a
transfer, and the end of a frame by the bytes a command names (R173, R176). -/

namespace Sys2Proof.Machine

/-- A port whose frame has not outlasted the gap is found as it is. -/
theorem afterGap_of_not_outlasted {p : Port} {s : State} (h : ¬s.outlasted p) : afterGap p s = s := by
  cases p
  · simp only [State.outlasted, true_and, Bool.not_eq_true] at h
    simp [afterGap, h]
  · rfl

/-- A frame that has outlasted the gap is found ended SHORT, the port hunting. -/
theorem afterGap_of_outlasted {p : Port} {s : State} (h : s.outlasted p) :
    afterGap p s = frameError p .short (toHunting p s) := by
  obtain ⟨rfl, hg⟩ := h
  simp [afterGap, hg, endShort]

/-- The Assured Port has no gap. -/
@[simp] theorem afterGap_assured (s : State) : afterGap .assured s = s := rfl

/-- Bytes clocked send the reply being shifted out with its last byte, and no other. -/
theorem clock_replies (n : Nat) (s : State) :
    (clock n s).assured.replies = s.repliesAfter .assured n := by
  have hb : s.assured.oldestBytes.length = (s.assured.replies.head?.map (fun r => r.bytes.length)).getD 0 := by
    unfold PortState.oldestBytes
    cases s.assured.replies <;> rfl
  unfold clock State.repliesAfter
  cases ht : s.transfer with
  | none => rfl
  | some t =>
    simp only [hb, Bool.and_eq_true, decide_eq_true_eq]
    split <;> simp [PortState.sendOldest, *]

/-- Bytes clocked count in the transfer, and end the shifting of a reply with its last byte. -/
theorem clock_transfer (n : Nat) (s : State) : (clock n s).transfer = s.transferAfter .assured n false := by
  have hb : s.assured.oldestBytes.length = (s.assured.replies.head?.map (fun r => r.bytes.length)).getD 0 := by
    unfold PortState.oldestBytes
    cases s.assured.replies <;> rfl
  unfold clock State.transferAfter
  cases ht : s.transfer with
  | none => simp [ht]
  | some t =>
    simp only [hb, Bool.and_eq_true, decide_eq_true_eq, Option.map_some, Bool.or_false]
    split
    · rename_i h; simp [h.1, Nat.not_lt.mpr h.2]
    · rename_i h
      cases hs : t.shifting with
      | false => simp
      | true => simp only [hs, true_and, Nat.not_le] at h; simp [h]

/-- Bytes clocked change the transfer and the replies of the Assured Port alone. -/
theorem clock_keeps (n : Nat) (s : State) :
    (clock n s).records = s.records ∧ (clock n s).openPort = s.openPort ∧
      (clock n s).assured.queue = s.assured.queue ∧ (clock n s).assured.assembling = s.assured.assembling ∧
      (clock n s).assured.lastByte = s.assured.lastByte := by
  unfold clock
  cases s.transfer with
  | none => simp
  | some t =>
    simp only []
    split <;> simp [PortState.sendOldest]

/-- The bytes a command names end a frame when they can be what the port assembles, the gap judged first. -/
theorem endFrame_of_canAssemble {p : Port} {bytes : List Byte} {s : State} (finish : State → State)
    (h : canAssemble p bytes (afterGap p s) = true) :
    endFrame p bytes finish s = (finish (stampByte p (clockRest p bytes (afterGap p s)))).drive := by
  simp [endFrame, h]

/-- Bytes that the port cannot assemble are no event. -/
theorem endFrame_of_not {p : Port} {bytes : List Byte} {s : State} (finish : State → State)
    (h : canAssemble p bytes (afterGap p s) = false) : endFrame p bytes finish s = s := by
  simp [endFrame, h]

end Sys2Proof.Machine
end

