-- ==== Sys2Proof/Laws/Table.lean ====
section
/-! SUPPORT. What the Warrant Table's shared operations do: shortening, marking and retiring one warrant (R85, R88,
R90, R104, R112), and a demand that takes warrants in turn. -/

namespace Sys2Proof.Machine

/-! ## Shortening and marking keep everything but the one warrant -/

@[simp] theorem shorten_cars (W : World) (F : Fleet) (i : SlotId) (x : Int) : (shorten W F i x).cars = F.cars := by
  simp [shorten]

@[simp] theorem shorten_notices (W : World) (F : Fleet) (i : SlotId) (x : Int) :
    (shorten W F i x).notices = F.notices := by
  simp [shorten]

/-- Computing the ceiling of slot `i` leaves every other slot as it was. -/
theorem receiling_other (W : World) (F : Fleet) {i j : SlotId} (h : j ≠ i) :
    (receiling W F i).slots[j] = F.slots[j] := by
  unfold receiling
  cases (F.slots[i]).warrant with
  | none => rfl
  | some w => simp only [Fleet.modWarrant_get, if_neg h]

/-- Shortening slot `i` leaves every other slot as it was. -/
theorem shorten_other (W : World) (F : Fleet) {i j : SlotId} (x : Int) (h : j ≠ i) :
    (shorten W F i x).slots[j] = F.slots[j] := by
  simp only [shorten, resettle_slots]
  rw [receiling_other W _ h, Fleet.modWarrant_get, if_neg h]

/-- Shortening a live warrant writes its limit, keeps a confirm point that is short of it, and gives it some ceiling;
the slot's generation is kept. -/
theorem shorten_self (W : World) (F : Fleet) (i : SlotId) (x : Int) (w : Warrant)
    (h : (F.slots[i]).warrant = some w) :
    ∃ ceiling, (shorten W F i x).slots[i] =
      { generation := (F.slots[i]).generation
        warrant := some { w with limit := x, confirm := keepShort w.dir x w.confirm, ceiling := ceiling } } := by
  simp only [shorten, resettle_slots]
  unfold receiling
  have hm := Fleet.modWarrant_get F i i (fun w => { w with limit := x, confirm := keepShort w.dir x w.confirm })
  rw [if_pos rfl, h] at hm
  simp only [hm, Option.map_some]
  rw [Fleet.modWarrant_get, if_pos rfl, hm]
  exact ⟨_, rfl⟩

@[simp] theorem markWarrant_cars (W : World) (F : Fleet) (i : SlotId) (r : Reason) :
    (markWarrant W F i r).cars = F.cars := by
  unfold markWarrant; split <;> simp

@[simp] theorem markWarrant_notices (W : World) (F : Fleet) (i : SlotId) (r : Reason) :
    (markWarrant W F i r).notices = F.notices := by
  unfold markWarrant; split <;> simp

/-- Marking a live warrant gives it the nearer of its limit and its floor, and the reason unless it carries one
(R90). -/
theorem markWarrant_self (W : World) (F : Fleet) (i : SlotId) (r : Reason) (w : Warrant)
    (h : (F.slots[i]).warrant = some w) :
    ∃ ceiling, (markWarrant W F i r).slots[i] =
      { generation := (F.slots[i]).generation
        warrant := some { w with
          limit := cutLimit W F w, confirm := keepShort w.dir (cutLimit W F w) w.confirm, ceiling := ceiling
          retireOnStop := some (w.retireOnStop.getD r) } } := by
  obtain ⟨ceiling, hs⟩ := shorten_self W F i (cutLimit W F w) w h
  refine ⟨ceiling, ?_⟩
  simp only [markWarrant, h, Fleet.modWarrant_get, hs, if_true, Option.map_some]

/-! ## Retirement (R88) -/

/-- After the six steps of a retirement the slot is free under its generation, and every other slot is as it was. -/
theorem unlink_slots (W : World) (F : Fleet) (i : SlotId) (w : Warrant) (r : Reason) :
    (unlink W F i w r).slots = (F.putWarrant i none).slots := by
  unfold unlink
  simp only []
  split <;> simp [Fleet.putWarrant]

/-- A retirement leaves the record of every carriage but the warrant's own. -/
theorem unlink_other (W : World) (F : Fleet) (i : SlotId) (w : Warrant) (r : Reason) {d : CarId}
    (h : d ≠ w.carriage) : (unlink W F i w r).cars[d] = F.cars[d] := by
  unfold unlink
  simp only []
  split
  · simp only [refront, Fleet.modCar_get, if_neg h, Fleet.putWarrant_cars, rezone_cars, Fleet.dropEntry_cars]
  · simp only [Fleet.modCar_get, if_neg h, Fleet.putWarrant_cars, rezone_cars, Fleet.dropEntry_cars]

/-- A retirement raises no notice of its own. -/
@[simp] theorem unlink_notices (W : World) (F : Fleet) (i : SlotId) (w : Warrant) (r : Reason) :
    (unlink W F i w r).notices = F.notices := by
  unfold unlink
  simp only []
  split <;> simp

/-- A retirement takes the warrant's handle off its carriage, writes the last retire, and may move the braking front;
the rest of the record is kept. -/
theorem unlink_self (W : World) (F : Fleet) (i : SlotId) (w : Warrant) (r : Reason) :
    ∃ front, (unlink W F i w r).cars[w.carriage] =
      { F.cars[w.carriage] with
        current := if (F.cars[w.carriage]).current = some (F.handleOf i) then none
          else (F.cars[w.carriage]).current
        stack := (F.cars[w.carriage]).stack.filter (fun x => x != F.handleOf i)
        lastRetire := some (r, F.handleOf i)
        front := front } := by
  unfold unlink
  simp only []
  split
  · simp only [refront, Fleet.putWarrant_cars, Fleet.modCar_get_self, rezone_cars, Fleet.dropEntry_cars]
    exact ⟨_, rfl⟩
  · refine ⟨(F.cars[w.carriage]).front, ?_⟩
    simp only [Fleet.putWarrant_cars, Fleet.modCar_get_self, rezone_cars, Fleet.dropEntry_cars]

/-- The removal of a cause, with the resumption attempt that an emptied hold set makes, in the words of `Safety`
(R150). -/
theorem releaseHold_eq_causeLifted (W : World) (F : Fleet) (c : CarId) (x : Cause) :
    releaseHold W F c x = causeLifted W F c x := by
  simp [releaseHold, causeLifted, Fleet.removeHold, Fleet.modCar]

/-- A walk that gains track answers DONE exactly when nothing stopped it (R74). -/
theorem WalkResult.status_done_iff (res : WalkResult) : res.status = .done ↔ res.blocker = none := by
  unfold WalkResult.status
  split <;> simp_all

/-! ## Zone holdings -/

/-- What a carriage reaches depends on its run, its extent and its run's list alone. -/
theorem reachedZones_congr {W : World} {F G : Fleet} {c : CarId} (hc : (G.cars[c]).cfg = (F.cars[c]).cfg)
    (hp : (G.cars[c]).pose = (F.cars[c]).pose) (ho : G.occupancy = F.occupancy) :
    reachedZones W G c = reachedZones W F c := by
  have hr : G.reserves c = F.reserves c := by
    funext u
    simp only [Fleet.reserves, hc, ho]
  simp only [reachedZones, claim, reserved, occupied, presentExtent, runOf, hc, hp, hr]
  rfl

/-- Holdings computed anew by `rezone`, with nothing the carriage reaches changed after it, in the words of `Safety`. -/
theorem Rezoned.of_rezone {W : World} {F P G : Fleet} {c : CarId} (hP : P.holders = F.holders)
    (hG : G.holders = (rezone W P c).holders) (hz : reachedZones W G c = reachedZones W P c) : Rezoned W F G c := by
  intro z
  have e : G.holders[z] = (rezone W P c).holders[z] := by rw [hG]
  rw [e, hz]
  by_cases hl : W.map.locked = true
  · simp only [rezone, hl, if_true, Fin.getElem_fin, Vector.getElem_ofFn, Fin.eta, hP] <;> rfl
  · simp only [rezone, hl, Bool.false_eq_true, if_false, hP]

/-! ## The shared operations in the words of `Safety` -/

/-- All that a change of a live warrant of slot `i`, followed by its entry and its carriage's holdings, does (R67, R68). -/
theorem resettle_of_live {W : World} {F : Fleet} {i : SlotId} {w : Warrant} (h : (F.slots[i]).warrant = some w) :
    resettle W F i = rezone W (F.putEntry W i w) w.carriage := by
  simp only [resettle, h]

/-- A run's list put in place of the old one. -/
theorem occupancy_set_get (v : Vector (List Entry) 8) (r q : RunId) (es : List Entry) :
    (v.set r es)[q] = if q = r then es else v[q] := by
  by_cases h : q = r
  · subst h; simp
  · have : (r : Nat) ≠ (q : Nat) := fun e => h (Fin.ext e.symm)
    simp [h, this]

/-- The list of the warrant's run after its entry is written, and every other list. -/
theorem Fleet.putEntry_get (W : World) (F : Fleet) (i : SlotId) (w : Warrant) (q : RunId) :
    (F.putEntry W i w).occupancy[q] =
      if q = (F.cars[w.carriage]).cfg.run then
        insertEntry (entryOf (runOf W F w.carriage) (F.handleOf i) w)
          ((F.occupancy[(F.cars[w.carriage]).cfg.run]).filter (fun e => e.handle.slot != i))
      else F.occupancy[q] := by
  simp only [Fleet.putEntry, occupancy_set_get, Fleet.dropEntry_get, if_true]
  by_cases hq : q = (F.cars[w.carriage]).cfg.run
  · simp only [if_pos hq]; rfl
  · simp only [if_neg hq]

/-- A shortening leaves what R85 and R104 say, the warrant's mark kept. -/
theorem shorten_shortened {W : World} {F : Fleet} {i : SlotId} {w : Warrant} (x : Int)
    (h : (F.slots[i]).warrant = some w) : Shortened W F i w x w.retireOnStop (shorten W F i x) := by
  let w1 : Warrant := { w with limit := x, confirm := keepShort w.dir x w.confirm }
  let w2 : Warrant := { w1 with ceiling := fullCeiling W F { w with limit := x } }
  let G := F.modWarrant i (fun w => { w with limit := x, confirm := keepShort w.dir x w.confirm })
  have hG : (G.slots[i]).warrant = some w1 := by
    simp only [G, Fleet.modWarrant_get, if_true, h, Option.map_some, w1]
  have hR : receiling W G i = G.modWarrant i (fun w' => { w' with ceiling := fullCeiling W G w1 }) := by
    simp only [receiling, hG]
  have hS : (receiling W G i).slots[i] = { F.slots[i] with warrant := some w2 } := by
    rw [hR]
    simp only [Fleet.modWarrant_get, if_true, hG, Option.map_some]
    simp only [G, Fleet.modWarrant_get, if_true]
    rfl
  have hw : ((receiling W G i).slots[i]).warrant = some w2 := by rw [hS]
  have hcars : (receiling W G i).cars = F.cars := by rw [hR]; rfl
  have hocc : (receiling W G i).occupancy = F.occupancy := by rw [hR]; rfl
  have hhold : (receiling W G i).holders = F.holders := by rw [hR]; rfl
  have hnot : (receiling W G i).notices = F.notices := by rw [hR]; rfl
  have hh : (receiling W G i).handleOf i = F.handleOf i := by
    simp only [Fleet.handleOf, hS]
  have e : shorten W F i x = rezone W ((receiling W G i).putEntry W i w2) w2.carriage := by
    show resettle W (receiling W G i) i = _
    exact resettle_of_live hw
  have hrun : runOf W (receiling W G i) w2.carriage = runOf W F w.carriage := by simp only [runOf, hcars, w2, w1]
  have hlist : ∀ q : RunId, (shorten W F i x).occupancy[q] =
      if q = (F.cars[w.carriage]).cfg.run then
        insertEntry (entryOf (runOf W F w.carriage) (F.handleOf i) { w with limit := x })
          ((F.occupancy[(F.cars[w.carriage]).cfg.run]).filter (fun e => e.handle.slot != i))
      else F.occupancy[q] := by
    intro q
    have hid : ((receiling W G i).cars[w2.carriage]).cfg.run = (F.cars[w.carriage]).cfg.run := by rw [hcars]
    simp only [e, rezone_occupancy, Fleet.putEntry_get, hrun, hh, hocc, hid]
    rfl
  refine ⟨?_, fun j hj => shorten_other W F x hj, by simp, ?_, fun r hr => ?_, ?_, by simp⟩
  · rw [e, rezone_slots, Fleet.putEntry_slots, hS]; rfl
  · rw [hlist, if_pos rfl]
  · rw [hlist, if_neg hr]
  · refine Rezoned.of_rezone (P := (receiling W G i).putEntry W i w2) ?_ (by rw [e]) ?_
    · rw [Fleet.putEntry_holders, hhold]
    · rw [e]
      exact reachedZones_congr (by simp [w2, w1]) (by simp [w2, w1]) (by simp)

/-- A cut that marks a live warrant leaves it as R90 says. -/
theorem markWarrant_marked {W : World} {F : Fleet} {i : SlotId} {w : Warrant} (r : Reason)
    (h : (F.slots[i]).warrant = some w) : Marked W F i w r (markWarrant W F i r) := by
  have hs := shorten_shortened (W := W) (cutLimit W F w) h
  have e : markWarrant W F i r = (shorten W F i (cutLimit W F w)).modWarrant i
      (fun w' => { w' with retireOnStop := some (w.retireOnStop.getD r) }) := by simp only [markWarrant, h]
  refine ⟨?_, fun j hj => ?_, by simp, ?_, fun q hq => ?_, ?_, by simp⟩
  · rw [e, Fleet.modWarrant_get, if_pos rfl, hs.slot]; rfl
  · rw [e, Fleet.modWarrant_get, if_neg hj, hs.slots j hj]
  · rw [e]; exact hs.list
  · rw [e]; exact hs.lists q hq
  · intro z
    have := hs.zones z
    rw [e]
    exact this

/-- The front is the same computed again. -/
theorem frontNow_refront (F : Fleet) (c : CarId) : (refront F c).frontNow c = F.frontNow c := by
  have h : (refront F c).cars[c] = { F.cars[c] with front := F.frontNow c } := by rw [refront_get, if_pos rfl]
  have hl : (refront F c).live = F.live := rfl
  simp only [Fleet.frontNow, Fleet.supervisionDir, Fleet.supervising, Fleet.inRunOut, Fleet.topOf, Fleet.currentOf, h, hl]
  rfl

/-- The first steps of a retirement leave what R88 says. -/
theorem unlink_retired {W : World} {F : Fleet} {i : SlotId} {w : Warrant} (r : Reason) :
    Retired W F i w r (unlink W F i w r) := by
  let c := w.carriage
  let run := (F.cars[c]).cfg.run
  let F1 := F.modCar c (fun k => { k with
    current := if k.current = some (F.handleOf i) then none else k.current
    stack := k.stack.filter (fun x => x != F.handleOf i) })
  let P := F1.dropEntry run i
  have hocc : (unlink W F i w r).occupancy = P.occupancy := by
    unfold unlink; simp only []; split <;> simp [refront, P, F1, run, c]
  have hhold : (unlink W F i w r).holders = (rezone W P c).holders := by
    unfold unlink; simp only []; split <;> rfl
  obtain ⟨front, hself⟩ := unlink_self W F i w r
  refine ⟨?_, fun j hj => ?_, ?_, fun d hd => unlink_other W F i w r hd, ?_, fun q hq => ?_, ?_, unlink_notices W F i w r⟩
  · rw [unlink_slots, Fleet.putWarrant_get, if_pos rfl]
  · rw [unlink_slots, Fleet.putWarrant_get, if_neg hj]
  · unfold unlink
    simp only []
    have hin : ∀ G : Fleet, G.cars = (((rezone W P c).modCar c
        (fun k => { k with lastRetire := some (r, F.handleOf i) })).putWarrant i none).cars →
        G.inRunOut c = (F.cars[c]).holds.reversal := by
      intro G hG
      simp only [Fleet.inRunOut, hG, Fleet.putWarrant_cars, Fleet.modCar_get_self, rezone_cars, P, Fleet.dropEntry_cars, F1]
    rw [hin _ rfl]
    by_cases hc : (decide ((F.cars[c]).current = some (F.handleOf i)) || (F.cars[c]).holds.reversal) = true
    · rw [if_pos hc, frontNow_refront]
      have hc' : (F.cars[w.carriage]).current = some (F.handleOf i) ∨ (F.cars[w.carriage]).holds.reversal = true := by
        simpa [c] using hc
      rw [if_pos hc']
      simp only [refront, Fleet.putWarrant_cars, Fleet.modCar_get_self, rezone_cars, Fleet.dropEntry_cars]
    · rw [if_neg hc]
      have hc' : ¬((F.cars[w.carriage]).current = some (F.handleOf i) ∨ (F.cars[w.carriage]).holds.reversal = true) := by
        simpa [c] using hc
      rw [if_neg hc']
      simp only [Fleet.putWarrant_cars, Fleet.modCar_get_self, rezone_cars, Fleet.dropEntry_cars]
  · rw [hocc]; simp only [P, Fleet.dropEntry_get, run, c, if_true]; rfl
  · rw [hocc]; simp only [P, Fleet.dropEntry_get, run, c, if_neg hq]; rfl
  · refine Rezoned.of_rezone (P := P) rfl hhold (reachedZones_congr ?_ ?_ hocc)
    · simp only [hself, P, Fleet.dropEntry_cars, F1, c, Fleet.modCar_get_self]
    · simp only [hself, P, Fleet.dropEntry_cars, F1, c, Fleet.modCar_get_self]

/-- A retirement leaves what R88 says. -/
theorem retire_retiredWhole {W : World} {F : Fleet} {i : SlotId} {w : Warrant} (r : Reason)
    (h : (F.slots[i]).warrant = some w) : RetiredWhole W F i w r (retire W F i r) := by
  refine ⟨unlink W F i w r, unlink_retired r, ?_⟩
  simp only [retire, h, losesKey, releaseHold_eq_causeLifted, Bool.and_eq_true, decide_eq_true_eq, bne_iff_ne,
    beq_iff_eq]

/-- A cut to front that marks leaves what R112 says. -/
theorem cutFrontMarking_stoppedOrMarked {W : World} {F : Fleet} {i : SlotId} {w : Warrant} (r : Reason)
    (h : (F.slots[i]).warrant = some w) : StoppedOrMarked W F i w r (cutFrontMarking W F i w r) := by
  unfold StoppedOrMarked cutFrontMarking
  by_cases hv : (F.cars[w.carriage]).lastV ≤ 5
  · simp only [hv, standstill, decide_true, if_true]; exact retire_retiredWhole r h
  · simp only [hv, standstill, decide_false, Bool.false_eq_true, if_false]; exact markWarrant_marked r h

/-! ## One after the other (R104) -/

theorem inTurn_append {α : Type} (acts : α → Fleet → Fleet → Prop) (xs ys : List α) (F G : Fleet) :
    inTurn acts (xs ++ ys) F G ↔ ∃ P, inTurn acts xs F P ∧ inTurn acts ys P G := by
  induction xs generalizing F with
  | nil => simp [inTurn]
  | cons x xs ih =>
    simp only [List.cons_append, inTurn, ih]
    constructor
    · rintro ⟨P, hx, Q, hs, ht⟩; exact ⟨Q, ⟨P, hx, hs⟩, ht⟩
    · rintro ⟨Q, ⟨P, hx, hs⟩, ht⟩; exact ⟨P, hx, Q, hs, ht⟩

/-- A demand on handles in turn is what each step does, one after the other. -/
theorem cutEach_inTurn {step : Fleet → Handle → Fleet × Bool} {acts : Handle → Fleet → Fleet → Prop}
    (hs : ∀ h F, acts h F (step F h).1) (c : CarId) (xs : List Handle) (F : Fleet) :
    inTurn acts xs F (cutEach step c xs F).1 := by
  induction xs generalizing F with
  | nil => rfl
  | cons x xs ih => exact ⟨_, hs x F, ih _⟩

/-- A demand on carriages in turn is what it does to each, one after the other. -/
theorem cutCars_inTurn {step : CarId → Fleet → Fleet × List Reached} {acts : CarId → Fleet → Fleet → Prop}
    (hs : ∀ c F, acts c F (step c F).1) (cs : List CarId) (F : Fleet) :
    inTurn acts cs F (cutCars step cs F).1 := by
  induction cs generalizing F with
  | nil => rfl
  | cons c cs ih => exact ⟨_, hs c F, ih _⟩

end Sys2Proof.Machine
end

