-- ==== Sys2Proof/Tests/Slice0.lean ====
section
/-! SUPPORT. The tests: ill-formed commands, codes and bodies from the tables of chapter 10, worked figures of the manual,
one step of each command on a small state, and for each statement that has hypotheses a state and operands that meet
them (`met_…`). -/

namespace Sys2Proof.Tests

open Sys2Proof Sys2Proof.Machine

set_option Elab.async false

/-! ## Well-formedness -/

/-- A frame that does not start with 0xA5, one of the wrong total length, and one whose length byte is above 120. -/
theorem test_ill_formed_frames :
    (Instr.frameReceived .openPort [0xA6, 0, 1, 2, 3, 4, 5]).wellFormed = false ∧
    (Instr.frameReceived .openPort [0xA5, 1, 1, 2, 3, 4, 5]).wellFormed = false ∧
    (Instr.frameReceived .openPort [0xA5, 121]).wellFormed = false ∧
    (Instr.frameReceived .openPort []).wellFormed = false ∧
    (Instr.frameReceived .openPort [0xA5, 0, 1, 2, 3, 4, 5]).wellFormed = true := by decide

/-- R173: a length byte of 120 ends no frame; 121 does. -/
theorem test_ill_formed_length_fault :
    (Instr.frameLengthFault .assured 120).wellFormed = false ∧
    (Instr.frameLengthFault .assured 121).wellFormed = true := by decide

/-- An ill-formed command is no event. -/
theorem test_ill_formed_is_no_event : exec (.frameLengthFault .openPort 120) State.reset = .next State.reset := rfl

/-! ## Chapter 10 -/

/-- 10.2: the CRC-16 with polynomial 0x1021 and initial value 0xFFFF of the digits 1 to 9. -/
theorem test_crc : crc16 [0x31, 0x32, 0x33, 0x34, 0x35, 0x36, 0x37, 0x38, 0x39] = 0x29B1 := by decide +kernel

/-- 10.5: the request codes, with the two rows that share a code told apart by their body. -/
theorem test_codes :
    commandOf .openPort 0x01 [] = .report .openPort ∧ commandOf .openPort 0x08 [] = .unhold .openPort ∧
    commandOf .assured 0x0D [] = .marks .assured ∧ commandOf .openPort 0x0E [] = .unknownRequestCode .openPort ∧
    commandOf .assured 0x2A [] = .restart .assured ∧ commandOf .assured 0x2B [] = .unknownRequestCode .assured ∧
    commandOf .openPort 0x11 [0, 0, 3, 0, 0, 0, 0, 0, 0, 0, 0, 0, 0, 0, 0, 0] = .setbayTruncate .openPort ∧
    commandOf .openPort 0x11 [0, 0, 1, 0, 0, 0, 0, 0, 0, 0, 0, 0, 0, 0, 0, 0] = .setbay .openPort ∧
    commandOf .openPort 0x13 [4, 0] = .setcarConfiguredNo .openPort ∧
    commandOf .openPort 0x13 [4, 1] = .setcar .openPort := by decide

/-- 10.5: numbers high byte first, speeds in two's complement. -/
theorem test_bodies :
    decodeAsk [5, 0x01, 0xC9, 0x08, 2, 0, 0, 0] =
      some { carriage := 5, target := 117000, cls := 2, lifetime := 0 } ∧
    decodeReport [4, 0x00, 0x17, 0x70, 0x00, 0x46, 0x50, 0xFF, 0xC4] =
      some { carriage := 4, positions := [6000, 18000], speed := -60 } ∧
    decodeReport [4, 0, 0] = none ∧ decodeAsk [5, 0, 0, 0, 2, 0, 0] = none := by decide

/-! ## A small machine

Run 0 is PLAIN 4,000 mm, four cells of 1,000 mm and PLAIN 6,000 mm with entry check: 14,000 mm, units 0 to 5. Carriage 0
stands on it at 1,000 with both reaches 500. Runs 1 and 2 are laid alike. -/

/-- The state a command leaves. -/
def after (c : Instr) (s : State) : Option State :=
  match exec c s with
  | .next t => some t
  | .fault _ => none
  | .refused _ => none

def allFull : AccessSet := { auto := .full, operator := .full, maintenance := .full, emergency := .full }

def bay (shape : BayShape) (entry : Bool) : Bay :=
  { shape := shape, ceiling := 400, access := allFull, inService := true, entryCheck := entry, condition := none,
    zone := none, traversed := false, stoppedIn := false }

def track : Run :=
  { defined := true, bays := [bay (.plain 4000) false, bay (.celled 1000 4) false, bay (.plain 6000) true],
    closeDir := .down, exposed := true, clearance := 0 }

def runs : Vector Run 8 := (((Vector.replicate 8 Run.initial).set 0 track).set 1 track).set 2 track

def world : World :=
  { World.initial with
    now := 1000, map := { runs := runs, zones := Vector.replicate 32 Zone.initial, locked := true }
    wind := { Wind.initial with state := .calm } }

def cfg (run : RunId) : CarConfig :=
  { run := run, offsets := [0], lowerReach := 500, upperReach := 500, maxSpeed := 400, creepSpeed := 50,
    deceleration := 250, reactionTime := 400, skewLimit := 10, reportInterval := 500, warningLead := 500,
    stopWindow := 200, threshold := 2, homeReference := 1000 }

/-- A configured carriage whose last report was taken at tick 500 at 1,000 mm, with speed `v`. -/
def carriage (run : RunId) (v : Int) : Carriage :=
  { Carriage.initial with
    cfg := cfg run, state := if v.natAbs ≤ 5 then .standing else .moving
    last := some { positions := [1000], speed := v, tick := 500 }
    pose := some { reference := 1000, skew := 0, lower := 500, upper := 1500 } }

/-- A GRANTED warrant UP from unit 0 to 7,500, in unit 4. -/
def warrant (c : CarId) : Warrant :=
  { carriage := c, origin := .openPort 1, cls := .auto, dir := .up, target := 9000, limit := 7500, rear := 0,
    confirm := none, ceiling := 400, state := .granted, expiry := some 900, lifetime := 2000, retireOnStop := none,
    warned := false }

/-- The warrant of carriage `c` in slot `c`, current, with its entry on run `c`. -/
def hold (F : Fleet) (c : Fin 3) (w : Warrant) : Fleet :=
  let i : SlotId := ⟨c.val, by omega⟩
  let h : Handle := { slot := i, generation := 1 }
  let k : CarId := ⟨c.val, by omega⟩
  let r : RunId := ⟨c.val, by omega⟩
  { F with
    slots := F.slots.set i { generation := 1, warrant := some w }
    cars := F.cars.set k
      (if w.state = .suspended then { F.cars[k] with stack := [h] } else { F.cars[k] with current := some h, front := some 1500 })
    occupancy := F.occupancy.set r [{ carriage := k, handle := h, firstUnit := 0, lastUnit := 4 }] }

/-- Carriage 0 on run 0, alone. -/
def fleet (v : Int) : Fleet := { Fleet.initial with cars := Fleet.initial.cars.set 0 (carriage 0 v) }

/-- Carriage 0 GRANTED, carriage 1 TRIPPED with a marked ACTIVE warrant, carriage 2 with a SUSPENDED one. -/
def busyFleet : Fleet :=
  let tripped : Carriage := { carriage 1 100 with
    state := .tripped, trip := some { kind := .overspeed, tick := 400, further := 0 }
    holds := { HoldSet.empty with trip := true } }
  let cars := (((fleet 0).cars.set 1 tripped).set 2 (carriage 2 0))
  hold (hold (hold { fleet 0 with cars := cars } 0 (warrant 0)) 1
    { warrant 1 with state := .active, expiry := none, retireOnStop := some .tripped }) 2
    { warrant 2 with state := .suspended, expiry := none }

/-- A state with these records, its lines driven. -/
def machine (W : World) (F : Fleet) : State :=
  ({ State.reset with records := { world := W, fleet := F, unstated := 0 } } : State).drive

/-- A frame of station 1 with tag 7. -/
def frame (code : Byte) (body : List Byte) : Frame := { station := 1, tag := 7, code := code, body := body }

/-- The state with one frame waiting on port `p`. -/
def offer (p : Port) (code : Byte) (body : List Byte) (s : State) : State :=
  s.modPort p (fun q => { q with queue := [frame code body] })

/-- The frame is offered as the command that its code and body name. -/
theorem offered (p : Port) (code : Byte) (body : List Byte) {s : State} (h : s.resetLine = false) :
    Offered (offer p code body s) (commandOf p code body) p (frame code body) [] :=
  ⟨by cases p <;> exact h, by cases p <;> rfl, rfl, fun _ => (by decide : (1 : Byte).toNat ≤ 63)⟩

/-- A property of every member of an option, by evaluation. -/
theorem all_of {α : Type} {o : Option α} {P : α → Prop} [DecidablePred P] (h : o.all (fun x => decide (P x)) = true) :
    ∀ x, o = some x → P x := by
  rintro x rfl
  simpa using h

/-- R66 by evaluation. -/
def bookHolds (F : Fleet) : Bool :=
  decide (∀ c : CarId, (F.cars[c]).current.all (fun h => (F.live h).any (fun w => w.carriage == c && w.state != .suspended)) = true ∧
    (F.cars[c]).stack.all (fun h => (F.live h).any (fun w => w.carriage == c && w.state == .suspended)) = true ∧
    (F.cars[c]).stack.Nodup) &&
  decide (∀ i : SlotId, (F.slots[i]).warrant.all (fun w =>
    decide (if w.state = .suspended then F.handleOf i ∈ (F.cars[w.carriage]).stack
      else (F.cars[w.carriage]).current = some (F.handleOf i))) = true)

theorem book_of_holds {F : Fleet} (h : bookHolds F = true) : F.Book := by
  simp only [bookHolds, Bool.and_eq_true, decide_eq_true_eq] at h
  refine ⟨fun c x hx => ?_, fun c x hx => ?_, fun i w hw => ?_, fun c => (h.1 c).2.2⟩
  · have := (h.1 c).1
    rw [hx] at this
    cases hl : F.live x with
    | none => simp [hl] at this
    | some w => exact ⟨w, rfl, by simpa [hl] using this⟩
  · have := List.all_eq_true.mp (h.1 c).2.1 x hx
    cases hl : F.live x with
    | none => simp [hl] at this
    | some w => exact ⟨w, rfl, by simpa [hl] using this⟩
  · have := h.2 i
    rw [hw] at this
    simpa using this

/-- R67 by evaluation. -/
def listsHold (F : Fleet) : Bool :=
  decide (∀ r : RunId, (F.occupancy[r]).Pairwise (fun a b => a.before b = true) ∧
    ((F.occupancy[r]).map (fun e => e.handle.slot)).Nodup ∧
    (F.occupancy[r]).all (fun e => (F.live e.handle).any (fun w =>
      w.carriage == e.carriage && (F.cars[w.carriage]).cfg.run == r)) = true) &&
  decide (∀ i : SlotId, (F.slots[i]).warrant.all (fun w =>
    (F.occupancy[(F.cars[w.carriage]).cfg.run]).any (fun e => e.handle == F.handleOf i)) = true)

theorem lists_of_hold {F : Fleet} (h : listsHold F = true) : F.Lists := by
  simp only [listsHold, Bool.and_eq_true, decide_eq_true_eq] at h
  refine ⟨fun r => (h.1 r).1, fun r => (h.1 r).2.1, fun r e he => ?_, fun i w hw => ?_⟩
  · have := List.all_eq_true.mp (h.1 r).2.2 e he
    cases hl : F.live e.handle with
    | none => simp [hl] at this
    | some w => exact ⟨w, rfl, by simpa [hl] using this⟩
  · have := h.2 i
    rw [hw] at this
    simpa [List.any_eq_true] using this

/-! ## The laws: a state that meets every one, with a command waiting -/

/-- Three carriages under warrants, and a tick waiting. -/
def busyMachine : State := { machine world busyFleet with pending := [.tick] }

theorem busy_book : busyFleet.Book := book_of_holds (by decide +kernel)

theorem busy_lists : busyFleet.Lists := lists_of_hold (by decide +kernel)

theorem busy_spans : busyFleet.Spans world := by
  intro r e w he hw
  have h : ∀ r : RunId, (busyFleet.occupancy[r]).all (fun e => (busyFleet.live e.handle).all (fun w =>
      decide (e = entryOf world.map.runs[r] e.handle w))) = true := by decide +kernel
  have h := List.all_eq_true.mp (h r) e he
  rw [hw] at h
  simpa using h

theorem busy_unlocked : busyMachine.unlockedLaw := fun h => absurd h (by decide)

/-- The laws of the warrants at a state with a GRANTED, a marked ACTIVE and a SUSPENDED warrant. -/
theorem met_warrant_laws : busyMachine.lineLaw ∧ busyMachine.bookLaw ∧ busyMachine.listLaw ∧ busyMachine.ceilingLaw ∧
    busyMachine.expiryLaw ∧ busyMachine.markLaw ∧ busyMachine.zoneLaw ∧ busyMachine.orderLaw ∧
    ∃ t, step busyMachine = .next t := by
  refine ⟨State.drive_lineLaw _, ⟨busy_book, busy_unlocked⟩, ⟨busy_lists, busy_spans, busy_book, busy_unlocked⟩,
    ⟨fun i => all_of ?_, busy_unlocked⟩, fun i => all_of ?_, ⟨fun c i w hc hw => ?_, busy_book, busy_unlocked⟩,
    ⟨fun z c h => ?_, busy_lists, busy_spans, busy_book, busy_unlocked⟩,
    ⟨fun i w hw => ?_, fun r b hb => ?_, fun _ => ?_, fun c => all_of ?_, busy_book, busy_unlocked⟩, _, rfl⟩
  · revert i; decide +kernel
  · revert i; decide +kernel
  · have : ∀ c : CarId, (busyFleet.cars[c]).state = .tripped →
        (busyFleet.currentOf c).all (fun x => decide (x.2.retireOnStop.isSome = true)) = true := by decide +kernel
    have h := this c hc
    have e : busyFleet.currentOf c = some (i, w) := hw
    rw [e] at h
    simpa using h
  · have : ∀ z : ZoneId, busyFleet.holders[z] = none := by decide +kernel
    rw [show busyMachine.records.fleet.holders[z] = none from this z] at h
    cases h
  · have : ∀ i : SlotId, (busyFleet.slots[i]).warrant.all (fun w => decide ((runOf world busyFleet w.carriage).length = 14000 ∧
        w.rear = 0 ∧ w.limit = 7500 ∧ w.target = 9000 ∧ w.dir = .up ∧ w.confirm = none)) = true := by decide +kernel
    obtain ⟨hl, h0, h1, h2, h3, h4⟩ := all_of (this i) w hw
    have hr : (runOf world busyFleet w.carriage).last = 13999 := by simp [Run.last, hl]
    exact ⟨by simp [busyMachine, machine, hr, h0], by simp [busyMachine, machine, hr, h1],
      by simp [busyMachine, machine, hr, h2], by rw [h0, h1, h3]; decide, by rw [h1, h2, h3]; decide,
      fun x hx => by rw [h4] at hx; cases hx⟩
  · have : ∀ r : RunId, (runs[r]).bays.all (fun b => decide (b.shape = .plain 4000 ∨ b.shape = .celled 1000 4 ∨
        b.shape = .plain 6000)) = true := by decide +kernel
    have h := List.all_eq_true.mp (this r) b hb
    rcases of_decide_eq_true h with e | e | e <;> rw [e] <;> decide
  · decide +kernel
  · revert c; decide +kernel

/-- The laws of trips, counters, queues, windows and STORM at the same state. -/
theorem met_counter_laws : busyMachine.tripLaw ∧ busyMachine.downshiftLaw ∧ busyMachine.stackLaw ∧
    busyMachine.noticeLaw ∧ busyMachine.queueLaw ∧ busyMachine.windowLaw ∧ busyMachine.stormLaw := by
  refine ⟨?_, ?_, ?_, ?_, fun p => ?_, fun _ => ?_, fun h => absurd h (by decide)⟩
  · unfold State.tripLaw; decide +kernel
  · unfold State.downshiftLaw; decide +kernel
  · unfold State.stackLaw; decide +kernel
  · unfold State.noticeLaw; decide +kernel
  · cases p <;> decide
  · decide +kernel

/-! ## The machine and the ports -/

/-- Carriage 0 STANDING, no warrant. -/
def idle : State := machine world (fleet 0)

/-- Carriage 0 STANDING with the GRANTED warrant of slot 0. -/
def granted : State := machine world (hold (fleet 0) 0 (warrant 0))

/-- A command waits, and none waits. -/
theorem met_StepRunsFrontCommand : busyMachine.pending = .tick :: [] ∧ idle.pending = [] := ⟨rfl, rfl⟩

/-- `n` frames and `b` BUSY replies on the Open Port, the first byte of a frame taken. -/
def loaded (n b : Nat) : State :=
  { idle with openPort :=
      { queue := List.replicate n (frame 0x20 []), replies := List.replicate b { station := 1, tag := 7, status := .busy, body := [], overflow := true },
        assembling := [0xA5], lastByte := 995 } }

/-- A frame begins with its start byte. -/
theorem starts (b2 b3 b4 : Byte) (body : List Byte) : [0xA5] <+: frameBytes 0xA5 b2 b3 b4 body := ⟨_, rfl⟩

/-- A frame whose first byte came at tick 990, with now 1000: its 5 ms are over. -/
def late : State := { loaded 0 0 with openPort := { (loaded 0 0).openPort with lastByte := 990 } }

/-- The Assured Port shifts out a reply of 7 bytes, `n` of them gone, with `k` frames waiting. -/
def replying (n k : Nat) : State :=
  { idle with transfer := some { shifting := true, clocked := n, frameTaken := false }
              assured := { PortState.initial with
                queue := List.replicate k (frame 0x20 [])
                replies := [{ station := 1, tag := 7, status := .done, body := [], overflow := false }] } }

/-- The first free place, the last free place, the last BUSY place and none left, with bodies of 0 and 120 bytes; an old
frame whose gap is over; and on the Assured Port a reply that the 7 bytes of the frame clock out, which frees the eighth
place, and one that they do not. -/
theorem met_CheckedFrameQueuedOrBusy :
    ((loaded 0 0).listening .openPort ∧ (loaded 0 0).openPort.assembling <+: frameBytes 0xA5 1 7 0x20 [] ∧
      ¬(loaded 0 0).outlasted .openPort) ∧
    ((loaded 7 8).listening .openPort ∧ (loaded 7 8).openPort.places = 7) ∧
    ((loaded 8 7).listening .openPort ∧ (loaded 8 7).openPort.places = 8 ∧ (loaded 8 7).openPort.busyWaiting = 7) ∧
    ((loaded 8 8).listening .openPort ∧ (loaded 8 8).openPort.places = 8 ∧ (loaded 8 8).openPort.busyWaiting = 8) ∧
    (List.replicate 120 (0 : Byte)).length ≤ 120 ∧
    (loaded 8 8).openPort.assembling <+: frameBytes 0xA5 1 7 0x20 (List.replicate 120 0) ∧
    (late.listening .openPort ∧ late.outlasted .openPort) ∧
    ((replying 0 7).listening .assured ∧ (replying 0 7).assured.assembling <+: frameBytes 0xA5 1 7 0x20 [] ∧
      (replying 0 7).assured.places = 8 ∧ (replying 0 7).repliesAfter .assured 7 = [] ∧
      ((replying 0 7).repliesAfter .assured 6).length = 1) := by
  refine ⟨⟨⟨rfl, trivial⟩, starts _ _ _ _, ?_⟩, ⟨⟨rfl, trivial⟩, by decide⟩, ⟨⟨rfl, trivial⟩, by decide, by decide⟩,
    ⟨⟨rfl, trivial⟩, by decide, by decide⟩, by decide, starts _ _ _ _, ⟨⟨rfl, trivial⟩, rfl, by decide⟩,
    ⟨rfl, true, 0, rfl⟩, ⟨_, rfl⟩, by decide, by decide +kernel, by decide +kernel⟩
  rintro ⟨-, h⟩
  exact absurd h (by decide)

/-- The Assured Port in a transfer that takes bytes. -/
def selected (bytes : List Byte) (n : Nat) : State :=
  { idle with transfer := some { shifting := false, clocked := n, frameTaken := false }
              assured := { PortState.initial with assembling := bytes } }

/-- A frame with a wrong CRC on either port, a length byte of 121, a gap of 6 ms, a lost stop bit, SEL released within a
frame; an old frame whose gap is over, and a reply being shifted out. -/
theorem met_FrameFaultsRaised :
    (idle.listening .openPort ∧ (selected [] 0).listening .assured ∧ wholeFrame [0xA5, 0, 1, 2, 3, 4, 5] = true ∧
      crcMatches [0xA5, 0, 1, 2, 3, 4, 5] = false ∧ idle.openPort.assembling <+: [0xA5, 0, 1, 2, 3, 4, 5]) ∧
    (120 < (121 : Byte).toNat ∧ (loaded 0 0).openPort.assembling <+: [0xA5, 121] ∧ (loaded 0 0).listening .openPort) ∧
    ((loaded 0 0).resetLine = false ∧ (loaded 0 0).openPort.assembling ≠ [] ∧
      5 < sinceTick 1001 (loaded 0 0).openPort.lastByte) ∧
    ((selected [0xA5] 1).resetLine = false ∧ (selected [0xA5] 1).transfer ≠ none ∧
      (selected [0xA5] 1).assured.assembling ≠ []) ∧
    (late.listening .openPort ∧ late.outlasted .openPort) ∧ (replying 6 0).listening .assured := by
  refine ⟨⟨⟨rfl, trivial⟩, ⟨rfl, false, 0, rfl⟩, by decide, by decide +kernel, ⟨_, rfl⟩⟩,
    ⟨by decide, ⟨_, rfl⟩, rfl, trivial⟩, ⟨rfl, by decide, by decide⟩, ⟨rfl, by decide, by decide⟩,
    ⟨⟨rfl, trivial⟩, rfl, by decide⟩, rfl, true, 6, rfl⟩

/-- The Assured Port after a whole frame, one byte of the reply it shifts out still to go. -/
def taken : State :=
  { replying 6 0 with transfer := some { shifting := true, clocked := 6, frameTaken := true } }

/-- Both ports hunting, the Assured Port with and without a reply being shifted out, and after a whole frame. -/
theorem met_BytesMakeTheFrame :
    (idle.lineLaw ∧ idle.resetLine = false ∧ idle.openPort.assembling = []) ∧
    ((selected [] 3).lineLaw ∧ (selected [] 3).resetLine = false ∧ (selected [] 3).assured.assembling = [] ∧
      (selected [] 3).transfer = some { shifting := false, clocked := 3, frameTaken := false }) ∧
    ((replying 6 0).lineLaw ∧ (replying 6 0).resetLine = false ∧ (replying 6 0).assured.assembling = [] ∧
      (replying 6 0).transfer = some { shifting := true, clocked := 6, frameTaken := false }) ∧
    (idle.listening .openPort ∧ (selected [] 0).listening .assured ∧ (replying 6 0).listening .assured ∧
      wholeFrame [0xA5, 0, 1, 2, 3, 4, 5] = true) ∧
    (taken.lineLaw ∧ taken.resetLine = false ∧
      taken.transfer = some { shifting := true, clocked := 6, frameTaken := true }) :=
  ⟨⟨State.drive_lineLaw _, rfl, rfl⟩, ⟨State.drive_lineLaw _, rfl, rfl, rfl⟩, ⟨State.drive_lineLaw _, rfl, rfl, rfl⟩,
    ⟨⟨rfl, trivial⟩, ⟨rfl, false, 0, rfl⟩, ⟨rfl, true, 6, rfl⟩, by decide⟩,
    State.drive_lineLaw _, rfl, rfl⟩

/-- All but the last byte of a reply gone, and its last byte gone. -/
theorem met_RepliesLeaveInOrder :
    (idle.lineLaw ∧ idle.resetLine = false ∧ idle.transfer = none) ∧
    ((selected [] 0).lineLaw ∧ (selected [] 0).transfer ≠ none ∧ (selected [] 0).assured.assembling = []) ∧
    ((replying 6 0).lineLaw ∧ (replying 6 0).resetLine = false ∧
      (6 : Nat) ≤ (Reply.bytes { station := 1, tag := 7, status := .done, body := [], overflow := false }).length) ∧
    (replying 7 0).lineLaw ∧
      (Reply.bytes { station := 1, tag := 7, status := .done, body := [], overflow := false }).length = 7 :=
  ⟨⟨State.drive_lineLaw _, rfl, rfl⟩, ⟨State.drive_lineLaw _, by decide, rfl⟩,
    ⟨State.drive_lineLaw _, rfl, by decide +kernel⟩, State.drive_lineLaw _, by decide +kernel⟩

/-- An unknown code, a body of the wrong length, and station 64 on the Open Port. -/
theorem met_MalformedRequestsRefused :
    ((offer .openPort 0x0E [] idle).resetLine = false ∧
      commandOf .openPort (frame 0x0E []).code (frame 0x0E []).body = .unknownRequestCode .openPort) ∧
    (commandOf .assured (frame 0x02 [0]).code (frame 0x02 [0]).body = .ask .assured ∧
      (Instr.ask .assured).lengthFits [0] = false ∧ ((offer .assured 0x02 [0] idle).port .assured).queue = [frame 0x02 [0]]) ∧
    63 < ({ frame 0x20 [] with station := 64 } : Frame).station.toNat := by decide

/-! ## Bodies and frames, at the greatest values -/

theorem met_FixedBodiesRoundTrip :
    (255 < 256 ∧ 16777215 < 2 ^ 24 ∧ 65535 < 2 ^ 16) ∧
    decodeAsk (encodeAsk { carriage := 255, target := 16777215, cls := 255, lifetime := 16777215 }) =
      some { carriage := 255, target := 16777215, cls := 255, lifetime := 16777215 } ∧
    (List.replicate 15 true).length = 15 := by decide

/-- One position and eight, a speed at each end of its range, and two offsets at the ends of theirs. -/
theorem met_VaryingBodiesAndFrames :
    (1 ≤ [16777215].length ∧ (List.replicate 8 16777215).length ≤ 8 ∧ ∀ x ∈ List.replicate 8 16777215, x < 2 ^ 24) ∧
    (-(2 ^ 15 : Int) ≤ -32768 ∧ (32767 : Int) < 2 ^ 15) ∧
    (∀ x ∈ [(-32768 : Int), 32767], -(2 ^ 15) ≤ x ∧ x < 2 ^ 15) ∧ (List.replicate 120 (0 : Byte)).length ≤ 120 := by
  decide

/-! ## The arithmetic -/

/-- Off the run below and above, at both ends, in a bay, and where the run ends. -/
theorem met_TranslationOfPositions :
    ((-1 : Int) < 0 ∧ (track.length : Int) ≤ 14000) ∧ (track.defined = true ∧ (13999 : Int) < track.length) ∧
    (track.bays[1]? = some (bay (.celled 1000 4) false) ∧ (track.bayStart 1 : Int) ≤ 4000 ∧
      (7999 : Int) < track.bayStart 1 + (bay (.celled 1000 4) false).length) ∧
    (0 < track.length ∧ track.last < 14000 ∧ (13999 : Int) ≤ track.last) := by decide

theorem met_BrakingDistanceRoundsUp : 10 ≤ 10 ∧ 2000 ≤ 2000 ∧ 1 ≤ 1 := by decide

theorem met_ReferenceAndSkew :
    ([0, 1048575].length = ({ cfg 0 with offsets := [32767, -32768] } : CarConfig).offsets.length ∧ [0, 1048575] ≠ []) ∧
    ((∀ p ∈ [0, 1048575], p ≤ 1048575) ∧ ∀ o ∈ [(32767 : Int), -32768], -32768 ≤ o ∧ o ≤ 32767) ∧
    List.zipWith (fun (p : Nat) (o : Int) => (p : Int) - o) [1000] (cfg 0).offsets = [1000] ∧
    ((fleet 0).cars[(0 : CarId)]).pose = some (poseOf (cfg 0) [1000]) := by decide

/-- A front at standstill and one above it, in each direction. -/
theorem met_BrakingFrontOfReport :
    frontAt (cfg 0) { reference := 1000, skew := 0, lower := 500, upper := 1500 } 5 (some .up) = some 1500 ∧
    frontAt (cfg 0) { reference := 1000, skew := 0, lower := 500, upper := 1500 } 6 (some .down) = some 496 := by decide

/-- Levels 0, 1 and 2; SHELTERED, CALM, BREEZE and worse; ceiling 1,000. -/
theorem met_EffectiveCeilingAndTolerance :
    (carriage 0 0).cfg.creepSpeed ≤ (carriage 0 0).cfg.maxSpeed ∧
    ((runOf world (fleet 0) 0).exposed = true ∧ world.wind.state = .calm) ∧
    ((runOf world (fleet 0) 1).exposed = true ∧
      ({ world.wind with state := .breeze } : Wind).state = .breeze ∧
      ({ world.wind with state := .gale } : Wind).state ≠ .calm ∧
      ({ world.wind with state := .gale } : Wind).state ≠ .breeze) ∧
    1000 ≤ 1000 := by decide

/-- The worked example of chapter 1, a stacking envelope: bay 3 in zone 6, whose parent is zone 2. -/
def envelope : TrackMap :=
  { runs := runs, locked := true
    zones := ((Vector.replicate 32 Zone.initial).set 6
        { defined := true, parent := some 2, access := none, ceiling := some 250 }).set 2
        { defined := true, parent := none, ceiling := none
          access := some { auto := .deny, operator := .creep, maintenance := .full, emergency := .full } } }

def bay3 : Bay := { bay (.celled 2500 12) false with zone := some 6, access := { allFull with maintenance := .creep } }

/-- R6 to R8: the rows of that example. -/
theorem test_unit_attributes :
    envelope.chain bay3 = [6, 2] ∧ envelope.ceiling bay3 = 250 ∧
    [Cls.auto, .operator, .maintenance, .emergency].map (envelope.access bay3) = [.deny, .creep, .full, .full] ∧
    [Cls.operator, .maintenance, .emergency].map (fun k => envelope.ceilingFor bay3 k 60) = [60, 250, 250] := by decide

/-- A chain with no override, and one whose second zone is the nearest with one. -/
theorem met_EffectiveCeilingAndTolerance_attributes :
    (∀ z ∈ envelope.chain { bay3 with zone := none }, (envelope.zones[z]).access = none) ∧
    (envelope.chain bay3 = [6] ++ 2 :: [] ∧ (∀ y ∈ [(6 : ZoneId)], (envelope.zones[y]).access = none) ∧
      (envelope.zones[(2 : ZoneId)]).access =
        some { auto := .deny, operator := .creep, maintenance := .full, emergency := .full }) := by decide

/-- A supervising warrant UP, one DOWN, and none. -/
theorem met_EnvelopeChecksInOrder :
    ((hold (fleet 0) 0 (warrant 0)).supervising 0 = some (0, warrant 0) ∧
      ((hold (fleet 0) 0 (warrant 0)).cars[(0 : CarId)]).pose =
        some { reference := 1000, skew := 0, lower := 500, upper := 1500 } ∧
      ((hold (fleet 0) 0 (warrant 0)).cars[(0 : CarId)]).front = some 1500) ∧
    ((hold (fleet 0) 0 { warrant 0 with dir := .down }).supervising 0 = some (0, { warrant 0 with dir := .down })) ∧
    (fleet 0).supervising 0 = none := by decide +kernel

/-- A carriage that holds REVERSAL with an empty stack, under the GRANTED warrant DOWN of slot 0, whose limit is 0. -/
def aloneFleet : Fleet :=
  let F := hold (fleet (-60)) 0 { warrant 0 with cls := .emergency, dir := .down, target := 0, limit := 0, rear := 3999 }
  { F with cars := F.cars.set 0 { F.cars[(0 : CarId)] with holds := { HoldSet.empty with reversal := true } } }

/-- R44: with REVERSAL and a stack the top of it supervises, and with an empty stack the current warrant. -/
theorem met_EnvelopeChecksInOrder_runOut :
    (let F := hold (fleet 60) 0 { warrant 0 with state := .suspended, expiry := none }
     let k : Carriage := { F.cars[(0 : CarId)] with holds := { HoldSet.empty with reversal := true } }
     k.stack = [] ++ [⟨0, 1⟩] ∧ F.live ⟨0, 1⟩ = some { warrant 0 with state := .suspended, expiry := none } ∧
       ({ F with cars := F.cars.set 0 k } : Fleet).supervising 0 =
         some (0, { warrant 0 with state := .suspended, expiry := none })) ∧
    (aloneFleet.cars[(0 : CarId)]).stack = [] ∧ (aloneFleet.cars[(0 : CarId)]).holds.reversal = true ∧
    (aloneFleet.supervising 0).map Prod.fst = some 0 := by decide +kernel

/-- A report of carriage 0 at the upper end of the run, at -5 mm/s, beside nothing, and one of an OFFLINE carriage. -/
theorem met_EnvelopeChecksInOrder_report : ∀ st ∈ [CarState.standing, .offline],
    let k := { carriage 0 0 with state := st }
    let q : ReportBody := { carriage := 0, positions := [13499], speed := -5 }
    let pz := poseOf k.cfg q.positions
    let F : Fleet := { fleet 0 with cars := (fleet 0).cars.set 0 { k with
      last := some { positions := q.positions, speed := q.speed, tick := 1000 }, pose := some pz, state := .standing } }
    (decodeReport (encodeReport q) = some q ∧ commandOf .openPort 0x01 (encodeReport q) = .report .openPort) ∧
    k.state ≠ .unconfigured ∧ k.state ≠ .tripped ∧ k.mute = false ∧ k.holds.reversal = false ∧ k.current = none ∧
    q.positions.length = k.cfg.offsets.length ∧ (∀ x ∈ q.positions, x ≤ 1048575) ∧ q.speed.natAbs ≤ 5 ∧
    pz.skew ≤ k.cfg.skewLimit ∧ 0 ≤ pz.lower ∧ pz.upper = track.last ∧
    (occupied world F 0).map TrackUnit.num = [5] ∧ othersClaims world F 0 = [] ∧ extentZones world F 0 = [] := by
  decide +kernel

/-- R136: a row of its table for each outcome, and the threshold less 20 that each falls at. -/
theorem test_wind_table :
    newWindState { Wind.initial with state := .calm } 79 = .calm ∧
    newWindState { Wind.initial with state := .calm } 80 = .breeze ∧
    newWindState { Wind.initial with state := .breeze } 61 = .breeze ∧
    newWindState { Wind.initial with state := .breeze } 59 = .calm ∧
    newWindState { Wind.initial with state := .breeze } 150 = .gale ∧
    newWindState { Wind.initial with state := .gale } 130 = .gale ∧
    newWindState { Wind.initial with state := .gale } 129 = .breeze ∧
    newWindState { Wind.initial with state := .storm } 200 = .storm ∧
    newWindState { Wind.initial with state := .storm } 199 = .gale ∧
    newWindState { Wind.initial with state := .unknown } 120 = .breeze ∧
    newWindState { Wind.initial with state := .calm } 230 = .storm := by decide

/-- Each clause of the wind rule at its threshold: STORM reached, GALE, BREEZE, none; and a threshold below 20. -/
theorem met_WindStateFromGust :
    Wind.initial.stormThreshold ≤ 220 ∧ (¬Wind.initial.stormThreshold ≤ 219 ∧ Wind.initial.galeThreshold ≤ 150) ∧
    (¬Wind.initial.galeThreshold ≤ 129 ∧ Wind.initial.breezeThreshold ≤ 80) ∧ ¬Wind.initial.breezeThreshold ≤ 59 ∧
    max 0 ((15 : Int) - 20) ≤ 0 := by decide

/-- R45: the rows of its table. -/
theorem test_braking_distances :
    brakingDistance 300 400 250 = 300 ∧ brakingDistance 450 250 400 = 367 ∧ brakingDistance 1000 0 2000 = 250 ∧
    brakingDistance 2000 2000 10 = 204000 ∧ brakingDistance 3 400 250 = 3 := by decide

/-- The walks of the tests: UP on run 0 from the leading end 1,500 to a target. -/
def walkTo (target : Int) : WalkPlan :=
  { car := 0, cls := .auto, dir := .up, base := 1500, target := target, oldSpan := none, ownSpan := none, met := none }

/-- A second check bay behind the first: the run of the tests with entry check on its CELLED bay too. -/
def checkedWorld : World :=
  { world with map := { world.map with
      runs := runs.set 0 { track with bays := track.bays.set 1 (bay (.celled 1000 4) true) } } }

/-- A carriage with no zone or neighbour walks to its target in unit 4; a closed window stops it; a walk into the check bay
records a confirm point, short of the bay in each direction; a second check bay stops one; and one with a confirm point
kept meets no bay as its first. -/
theorem met_GrantWalkPassesChecks :
    (walk world (fleet 0) (walkTo 7500)).blocker = none ∧ (walk world (fleet 0) (walkTo 7500)).passed.length = 4 ∧
    (walk world (fleet 0) { walkTo 7500 with cls := .maintenance }).blocker ≠ none ∧
    (walk world (fleet 0) (walkTo 13000)).confirm = some 7999 ∧
    (walk checkedWorld (fleet 0) (walkTo 13000)).blocker = some .check ∧
    (walk checkedWorld (fleet 0) (walkTo 13000)).confirm = some 3999 ∧
    (walk checkedWorld (fleet 0) { walkTo 13000 with met := some 2, base := 7999 }).blocker = none ∧
    (walk checkedWorld (fleet 0) { walkTo 13000 with oldSpan := some (1, 4), ownSpan := some (1, 4) }).blocker = none := by
  decide +kernel

/-- The world with the PLAIN bay behind the cells changed, and the fleet with carriage 3 standing in it too. -/
def worldWith (f : Bay → Bay) : World :=
  { world with map := { world.map with runs := runs.set 0 { track with bays := track.bays.modify 2 f } } }

/-- Each of the other checks stops a walk to 13,000 at unit 5 or, on the whole run, at its start unit; in an old span a bay of
ceiling 0 stops none. -/
theorem met_GrantWalkPassesChecks_blockers :
    let stop := fun (W : World) (F : Fleet) => (walk W F (walkTo 13000)).blocker
    let held : Fleet := { fleet 0 with holders := (fleet 0).holders.set 6 (some 1) }
    let beside : Carriage := { carriage 0 0 with pose := some ⟨9000, 0, 8000, 9500⟩ }
    let near : Fleet := { fleet 0 with cars := (fleet 0).cars.set 3 beside }
    stop (worldWith (fun b => { b with inService := false })) (fleet 0) = some .service ∧
    stop (worldWith (fun b => { b with ceiling := 0 })) (fleet 0) = some .ceiling ∧
    stop (worldWith (fun b => { b with access := { allFull with auto := .deny } })) (fleet 0) = some .access ∧
    stop (worldWith (fun b => { b with condition := some 3 })) (fleet 0) = some .condition ∧
    stop { world with wind := { world.wind with state := .gale } } (fleet 0) = some .wind ∧
    stop { world with windows := Vector.replicate 8 true } (fleet 0) = some .maint ∧
    stop (worldWith (fun b => { b with zone := some 6 })) held = some .zone ∧ stop world near = some .occupied ∧
    (walk (worldWith (fun b => { b with ceiling := 0 })) (fleet 0) { walkTo 13000 with oldSpan := some (0, 5) }).blocker = none := by
  decide +kernel
/-! ## Map requests -/

/-- The same world with the map UNLOCKED. -/
def openWorld : World := { world with map := { world.map with locked := false } }

/-- Carriage 0 STANDING on the UNLOCKED map. -/
def unlocked : State := machine openWorld (fleet 0)

def runBody (defined : Nat) : SetRunBody := { run := 3, defined := defined, closeDir := 2, exposure := 1, clearance := 5000 }

theorem met_LockAndPortRefusals :
    (Offered (offer .openPort 0x10 (encodeSetRun (runBody 1)) idle) (.setrun .openPort) .openPort
        (frame 0x10 (encodeSetRun (runBody 1))) [] ∧
      (Instr.setrun .openPort).lengthFits (encodeSetRun (runBody 1)) = true ∧ idle.records.world.map.locked = true) ∧
    (Offered (offer .openPort 0x20 [] idle) (.lock .openPort) .openPort (frame 0x20 []) [] ∧
      (Instr.lock .openPort).lengthFits [] = true) := by
  refine ⟨⟨offered .openPort 0x10 _ rfl, by decide, rfl⟩, offered .openPort 0x20 _ rfl, rfl⟩

def zoneBody (defined : Nat) : SetZoneBody :=
  { zone := 31, defined := defined, parent := 0, overriding := 1, auto := 1, operator := 2, maintenance := 3, emergency := 3,
    ceiling := 1000 }

theorem met_SetrunAndSetzoneWrite :
    (∀ d, Offered (offer .assured 0x10 (encodeSetRun (runBody d)) unlocked) (.setrun .assured) .assured
      (frame 0x10 (encodeSetRun (runBody d))) []) ∧
    (∀ d ∈ [0, 1], decodeSetRun (encodeSetRun (runBody d)) = some (runBody d) ∧ (runBody d).clearance ≤ 5000 ∧
      (runBody d).closeDir = Dir.down.code) ∧ unlocked.records.world.map.locked = false ∧
    (∀ d, Offered (offer .openPort 0x12 (encodeSetZone (zoneBody d)) unlocked) (.setzone .openPort) .openPort
      (frame 0x12 (encodeSetZone (zoneBody d))) []) ∧
    (∀ d ∈ [0, 1], decodeSetZone (encodeSetZone (zoneBody d)) = some (zoneBody d) ∧
      (zoneBody d).parent = ((some (0 : ZoneId)).map Fin.val).getD 0xFF ∧
      (zoneBody d).ceiling = (some 1000).getD 0xFFFF) ∧
    (∀ q ∈ [{ runBody 1 with run := 8 }, runBody 2, { runBody 0 with clearance := 5001 }, { runBody 1 with closeDir := 0 },
      { runBody 1 with closeDir := 3 }, { runBody 1 with exposure := 0 }, { runBody 1 with exposure := 3 }],
      decodeSetRun (encodeSetRun q) = some q) ∧
    (∀ q ∈ [{ zoneBody 1 with zone := 32 }, zoneBody 2, { zoneBody 1 with parent := 32 }, { zoneBody 1 with ceiling := 1001 },
      { zoneBody 1 with overriding := 2 }, { zoneBody 1 with auto := 0 }, { zoneBody 1 with emergency := 4 }],
      decodeSetZone (encodeSetZone q) = some q) ∧
    (∀ q, Offered (offer .assured 0x10 (encodeSetRun q) unlocked) (.setrun .assured) .assured (frame 0x10 (encodeSetRun q)) []) ∧
    ∀ q, Offered (offer .openPort 0x12 (encodeSetZone q) unlocked) (.setzone .openPort) .openPort
      (frame 0x12 (encodeSetZone q)) [] :=
  ⟨fun _ => offered .assured 0x10 _ rfl, by decide, rfl, fun _ => offered .openPort 0x12 _ rfl, by decide, by decide,
    by decide, fun _ => offered .assured 0x10 _ rfl, fun _ => offered .openPort 0x12 _ rfl⟩

/-- A `setbay` body for run `run` and bay `b` of a kind, of length `l` and cell count `n`. -/
def bayBody (run b kind l n : Nat) : SetBayBody :=
  { run := run, bay := b, kind := kind, length := l, count := n, ceiling := 1000, auto := 3, operator := 3, maintenance := 3,
    emergency := 3, inService := 1, entryCheck := 0, condition := 0xFF, zone := 31 }

/-- On a defined run a bay it has, the bay behind its last, one too far; on an undefined run; and the least PLAIN and
CELLED bays. -/
theorem met_SetbayWritesBay :
    (∀ b ∈ [2, 3, 4], decodeSetBay (encodeSetBay (bayBody 0 b 1 200 0)) = some (bayBody 0 b 1 200 0) ∧
      decodeSetBay (encodeSetBay (bayBody 7 b 2 100 2)) = some (bayBody 7 b 2 100 2) ∧
      commandOf .openPort 0x11 (encodeSetBay (bayBody 0 b 1 200 0)) = .setbay .openPort ∧
      commandOf .openPort 0x11 (encodeSetBay (bayBody 7 b 2 100 2)) = .setbay .openPort ∧
      commandOf .openPort 0x11 (encodeSetBay (bayBody 0 b 3 0 0)) = .setbayTruncate .openPort) ∧
    (unlocked.records.world.map.runs[(0 : RunId)]).defined = true ∧
    (unlocked.records.world.map.runs[(0 : RunId)]).bays.length = 3 ∧
    (unlocked.records.world.map.runs[(7 : RunId)]).defined = false ∧
    (∀ body, Offered (offer .openPort 0x11 body unlocked) (commandOf .openPort 0x11 body) .openPort (frame 0x11 body) []) ∧
    (∀ q ∈ [bayBody 8 0 1 200 0, bayBody 0 48 1 200 0, bayBody 0 0 0 200 0, bayBody 0 0 1 199 0, bayBody 0 0 2 99 2,
      bayBody 0 0 2 4096 2, bayBody 0 0 2 100 1, bayBody 0 0 2 100 33, { bayBody 0 0 1 200 0 with ceiling := 1001 },
      { bayBody 0 0 1 200 0 with operator := 0 }, { bayBody 0 0 1 200 0 with auto := 4 },
      { bayBody 0 0 1 200 0 with inService := 2 }, { bayBody 0 0 1 200 0 with entryCheck := 2 },
      { bayBody 0 0 1 200 0 with condition := 16 }, { bayBody 0 0 1 200 0 with zone := 32 }],
      decodeSetBay (encodeSetBay q) = some q ∧ commandOf .openPort 0x11 (encodeSetBay q) = .setbay .openPort) ∧
    (∀ q ∈ [bayBody 8 0 3 0 0, bayBody 0 48 3 0 0],
      decodeSetBay (encodeSetBay q) = some q ∧ commandOf .openPort 0x11 (encodeSetBay q) = .setbayTruncate .openPort) :=
  ⟨by decide, by decide, by decide, by decide, fun _ => offered _ _ _ rfl, by decide, by decide⟩

/-- A bay of run 0 and none of run 7; in service or not; the same ceiling and another; LOCKED and UNLOCKED. -/
theorem met_ServiceAndCeilingWriteBay :
    (∀ s ∈ [idle, unlocked], ∀ x ∈ [0, 1],
      Offered (offer .assured 0x22 (encodeTriple { fst := 0, snd := 2, thd := x }) s) (.service .assured) .assured
        (frame 0x22 (encodeTriple { fst := 0, snd := 2, thd := x })) [] ∧
      Offered (offer .assured 0x23 (encodeCeiling { run := 0, bay := 2, ceiling := 400 + x }) s) (.ceiling .assured) .assured
        (frame 0x23 (encodeCeiling { run := 0, bay := 2, ceiling := 400 + x })) []) ∧
    (∀ x ∈ [0, 1], decodeTriple (encodeTriple { fst := 0, snd := 2, thd := x }) = some { fst := 0, snd := 2, thd := x } ∧
      decodeCeiling (encodeCeiling { run := 0, bay := 2, ceiling := 400 + x }) = some { run := 0, bay := 2, ceiling := 400 + x }) ∧
    track.bays[2]? = some (bay (.plain 6000) true) ∧ (bay (.plain 6000) true).inService = true ∧
    (idle.records.world.map.runs[(7 : RunId)]).defined = false ∧
    (∀ q ∈ [(⟨8, 0, 0⟩ : TripleBody), ⟨0, 48, 0⟩, ⟨0, 0, 2⟩], decodeTriple (encodeTriple q) = some q) ∧
    (∀ q ∈ [(⟨8, 0, 0⟩ : CeilingBody), ⟨0, 48, 0⟩, ⟨0, 0, 1001⟩], decodeCeiling (encodeCeiling q) = some q) ∧
    (∀ q, Offered (offer .assured 0x22 (encodeTriple q) idle) (.service .assured) .assured (frame 0x22 (encodeTriple q)) []) ∧
    ∀ q, Offered (offer .assured 0x23 (encodeCeiling q) idle) (.ceiling .assured) .assured (frame 0x23 (encodeCeiling q)) [] := by
  refine ⟨fun s hs x _ => ?_, by decide, rfl, rfl, by decide, by decide, by decide, fun _ => offered .assured 0x22 _ rfl,
    fun _ => offered .assured 0x23 _ rfl⟩
  have h : s.resetLine = false := by
    simp only [List.mem_cons, List.not_mem_nil, or_false] at hs
    rcases hs with rfl | rfl <;> rfl
  exact ⟨offered .assured 0x22 _ h, offered .assured 0x23 _ h⟩

/-- A run with no bays fails the validation with code 1; the map of the tests passes it. -/
theorem met_LockValidatesAndLocks :
    (∀ s ∈ [idle, unlocked], s.resetLine = false) ∧
    Offered (offer .assured 0x20 [] unlocked) (.lock .assured) .assured (frame 0x20 []) [] ∧
    lockFault openWorld (fleet 0) = none ∧
    (lockFault { openWorld with map := { openWorld.map with runs := openWorld.map.runs.set 5 { track with bays := [] } } }
      (fleet 0)) = some { code := 1, first := 5, second := none } :=
  ⟨by decide +kernel, offered .assured 0x20 _ rfl, by decide +kernel, by decide +kernel⟩

/-- The map of the tests with one run and some zones changed. -/
def faultyWorld (run : Run) (zones : List (ZoneId × Option ZoneId)) : World :=
  { openWorld with map := { openWorld.map with
      runs := openWorld.map.runs.set 0 run
      zones := zones.foldl (fun zs x => zs.set x.1 { Zone.initial with defined := true, parent := x.2 }) openWorld.map.zones } }

/-- A map that passes, and one for each code with its items: runs with no bays and of 1,048,577 mm; a parent undefined behind
two zones, a chain of five zones, one that returns to its start; a bay in an undefined zone; a carriage on an undefined run,
one whose home lies below 0, and two that stand in one unit. The first code is found where two faults stand. -/
theorem met_LockedMapIsSound :
    let long := { track with bays := [bay (.plain 1048577) false] }
    let home := fun (c : CarId) (x : Int) =>
      { fleet 0 with cars := (fleet 0).cars.set c { carriage 0 0 with cfg := { cfg 0 with homeReference := x } } }
    lockFault openWorld (fleet 0) = none ∧
    lockFault (faultyWorld { track with bays := [] } [(1, some 7)]) (fleet 0) = some ⟨1, 0, none⟩ ∧
    lockFault (faultyWorld long [(1, some 7)]) (fleet 0) = some ⟨2, 0, none⟩ ∧
    lockFault (faultyWorld track [(0, some 1), (1, some 7)]) (fleet 0) = some ⟨3, 0, some 1⟩ ∧
    lockFault (faultyWorld track [(0, some 1), (1, some 2), (2, some 3), (3, some 4), (4, none)]) (fleet 0) = some ⟨4, 0, none⟩ ∧
    lockFault (faultyWorld track [(0, some 1), (1, some 2), (2, some 3), (3, none)]) (fleet 0) = none ∧
    lockFault (faultyWorld track [(5, some 5), (6, some 7)]) (fleet 0) = some ⟨5, 5, none⟩ ∧
    lockFault (faultyWorld { track with bays := track.bays.modify 2 (fun b => { b with zone := some 31 }) } []) (fleet 0) =
      some ⟨6, 0, some 2⟩ ∧
    lockFault { openWorld with map := { openWorld.map with runs := Vector.replicate 8 Run.initial } } (fleet 0) =
      some ⟨7, 0, none⟩ ∧
    lockFault openWorld (home 0 499) = some ⟨8, 0, none⟩ ∧ lockFault openWorld (home 0 500) = none ∧
    lockFault openWorld (home 15 1000) = some ⟨9, 0, some 15⟩ := by
  decide +kernel

theorem met_UnlockNeedsNoLiveWarrant :
    (∀ s : State, s.resetLine = false →
      Offered (offer .assured 0x21 [] s) (.unlock .assured) .assured (frame 0x21 []) []) ∧
    (∃ i : SlotId, (granted.records.fleet.slots[i]).warrant ≠ none) ∧
    (∀ i : SlotId, (idle.records.fleet.slots[i]).warrant = none) ∧ idle.records.world.map.locked = true ∧
    unlocked.records.world.map.locked = false :=
  ⟨fun _ h => offered .assured 0x21 _ h, ⟨0, by decide +kernel⟩, by decide +kernel, rfl, rfl⟩

/-- READ and TAKE of the last run, run 8, and mode 2. -/
theorem met_MarksReadAndTake : ∀ q ∈ [(⟨7, 0⟩ : PairBody), ⟨7, 1⟩, ⟨8, 0⟩, ⟨0, 2⟩],
    Offered (offer .openPort 0x0D (encodePair q) idle) (.marks .openPort) .openPort (frame 0x0D (encodePair q)) [] ∧
      decodePair (encodePair q) = some q := by
  intro q hq
  refine ⟨offered .openPort 0x0D _ rfl, ?_⟩
  revert q
  decide

/-! ## Carriages -/

/-- A `setcar` body for carriage `c` on run 7, with a home reference. -/
def carBody (c home : Nat) : SetCarBody :=
  { carriage := c, configured := 1, run := 7, offsets := [-6000, 6000], lowerReach := 10000, upperReach := 11000, maxSpeed := 500,
    creepSpeed := 60, deceleration := 100, reactionTime := 1000, skewLimit := 30, reportInterval := 500, warningLead := 500,
    stopWindow := 200, threshold := 2, homeReference := home }

/-- In range at the last home reference, out of range one above; a carriage that is not TRIPPED and one that is. -/
theorem met_SetcarConfigures :
    (∀ body, Offered (offer .openPort 0x13 body (machine openWorld busyFleet)) (commandOf .openPort 0x13 body) .openPort
      (frame 0x13 body) []) ∧
    (∀ h ∈ [1048575, 1048576], decodeSetCar (encodeSetCar (carBody 1 h)) = some (carBody 1 h) ∧
      commandOf .openPort 0x13 (encodeSetCar (carBody 1 h)) = .setcar .openPort) ∧
    setCarInRange (carBody 1 1048575) = true ∧ setCarInRange (carBody 1 1048576) = false ∧
    (busyFleet.cars[(1 : CarId)]).state = .tripped ∧ (busyFleet.cars[(0 : CarId)]).state ≠ .tripped ∧
    commandOf .openPort 0x13 [15, 0] = .setcarConfiguredNo .openPort ∧ field [15, 0] 0 1 = (15 : CarId).val ∧
    (commandOf .openPort 0x13 [16, 0] = .setcarConfiguredNo .openPort ∧ 15 < field [16, 0] 0 1) ∧
    (∀ q ∈ [carBody 16 0, { carBody 0 0 with configured := 2 }, { carBody 0 0 with run := 8 },
      { carBody 0 0 with maxSpeed := 59 }, { carBody 0 0 with threshold := 6 }],
      decodeSetCar (encodeSetCar q) = some q ∧ commandOf .openPort 0x13 (encodeSetCar q) = .setcar .openPort) :=
  ⟨fun _ => offered _ _ _ rfl, by decide, by decide, by decide, by decide +kernel, by decide +kernel, by decide, by decide,
    by decide, by decide⟩

/-- A report that is acceptable at the last position, one beyond it, one with two positions, one of an UNCONFIGURED
carriage; a skew above the limit, an extent off the run; a carriage that is mute and one that is TRIPPED. -/
theorem met_ReportRecordsReadings :
    (∀ q : ReportBody, Offered (offer .assured 0x01 (encodeReport q) idle) (.report .assured) .assured
      (frame 0x01 (encodeReport q)) []) ∧
    (∀ x ∈ [[1048575], [1048576], [1000, 1000]], decodeReport (encodeReport { carriage := 0, positions := x, speed := 2001 }) =
      some { carriage := 0, positions := x, speed := 2001 }) ∧
    (decodeReport (encodeReport { carriage := 16, positions := [1000], speed := 0 }) =
      some { carriage := 16, positions := [1000], speed := 0 } ∧ 15 < 16) ∧
    (idle.records.fleet.cars[(0 : CarId)]).state ≠ .unconfigured ∧
    (idle.records.fleet.cars[(1 : CarId)]).state = .unconfigured ∧
    [1048575].length = (carriage 0 0).cfg.offsets.length ∧ busyFleet.Book ∧
    track.last < (poseOf (cfg 0) [1048575]).upper ∧ (poseOf (cfg 0) [1048575]).skew ≤ (cfg 0).skewLimit ∧
    (cfg 0).skewLimit < (poseOf { cfg 0 with offsets := [0, 0] } [1000, 1011]).skew ∧
    (busyFleet.cars[(1 : CarId)]).state = .tripped :=
  ⟨fun _ => offered .assured 0x01 _ rfl, by decide, by decide, by decide, by decide, by decide, busy_book, by decide, by decide,
    by decide, by decide +kernel⟩

/-- The fleet of one carriage with the warrant `w`. -/
def underWarrant (w : Warrant) : Fleet := hold (fleet 0) 0 w

/-- Carriage 0 in a run-out: a current EMERGENCY warrant DOWN in slot 3, and the warrant of slot 0 SUSPENDED. -/
def runOutFleet : Fleet :=
  let F := hold (fleet 60) 0 { warrant 0 with state := .suspended, expiry := none }
  { F with
    slots := F.slots.set 3 { generation := 1, warrant := some { warrant 0 with
      origin := .assured, cls := .emergency, dir := .down, target := 0, limit := 0, rear := 3999, confirm := none } }
    cars := F.cars.set 0 { F.cars[(0 : CarId)] with
      current := some ⟨3, 1⟩, front := some 1532, holds := { HoldSet.empty with reversal := true } }
    occupancy := F.occupancy.set 0 [{ carriage := 0, handle := ⟨0, 1⟩, firstUnit := 0, lastUnit := 4 },
      { carriage := 0, handle := ⟨3, 1⟩, firstUnit := 0, lastUnit := 0 }] }

theorem runOut_book : runOutFleet.Book := book_of_holds (by decide +kernel)

/-- Carriage 0 tripped with kind `kind` under the GRANTED warrant of slot 0, marked. -/
def trippedUnder (kind : TripKind) : Fleet :=
  let F := underWarrant { warrant 0 with retireOnStop := some .tripped }
  { F with cars := F.cars.set 0 { F.cars[(0 : CarId)] with
      state := .tripped, trip := some { kind := kind, tick := 600, further := 0 } } }

/-- The first check that a report of carriage 0 in fleet `F` fails, as the model finds it. -/
def failed (F : Fleet) (x : Nat) (speed : Int) : Option TripKind :=
  let G := recordReport world F 0 [x] speed
  match trackCheck world G 0 with
  | some kind => some kind
  | none => envelopeCheck world G 0 speed

/-- The clauses of a report that passes or trips: no warrant at standstill; UNWARRANTED and OVERRUN; a warrant marked, at
standstill; one activated; one that a trip REVERSE keeps GRANTED; one that completes within the stop window; and a run-out, moving and ended. -/
theorem met_ReportRecordsReadings_progress :
    failed (fleet 0) 1000 5 = none ∧ (fleet 0).currentOf 0 = none ∧
    failed (fleet 0) 1000 6 = some .unwarranted ∧ failed (underWarrant (warrant 0)) 7001 6 = some .overrun ∧
    (let w := { warrant 0 with retireOnStop := some .wind }
     failed (underWarrant w) 1000 0 = none ∧ (underWarrant w).currentOf 0 = some (0, w) ∧ (underWarrant w).Book) ∧
    (failed (underWarrant (warrant 0)) 1000 6 = none ∧ (underWarrant (warrant 0)).currentOf 0 = some (0, warrant 0)) ∧
    (failed (trippedUnder .reverse) 1000 6 = none ∧ (trippedUnder .reverse).Book ∧
      ((trippedUnder .reverse).currentOf 0).map (fun x => x.2.state) = some .granted) ∧
    (let w := { warrant 0 with state := .active, expiry := none, warned := true }
     failed (underWarrant w) 6800 0 = none ∧ (underWarrant w).currentOf 0 = some (0, w) ∧
       w.limit - (poseOf (cfg 0) [6800]).upper ≤ (cfg 0).stopWindow) ∧
    ((runOutFleet.cars[(0 : CarId)]).holds.reversal = true ∧ failed runOutFleet 1010 60 = none ∧
      failed runOutFleet 1010 0 = none ∧ runOutFleet.topOf 0 = some (0, { warrant 0 with state := .suspended, expiry := none }) ∧
      (runOutFleet.currentOf 0).isSome = true) := by
  refine ⟨by decide +kernel, by decide +kernel, by decide +kernel, by decide +kernel,
    ⟨by decide +kernel, by decide +kernel, book_of_holds (by decide +kernel)⟩, by decide +kernel,
    ⟨by decide +kernel, book_of_holds (by decide +kernel), by decide +kernel⟩, by decide +kernel, by decide +kernel⟩

/-- A standstill report ends a run-out whose current warrant is marked, and one with no current warrant. -/
theorem met_ReportRecordsReadings_ends :
    (let F := runOutFleet.modWarrant 3 (fun w => { w with retireOnStop := some .keyLost })
     F.Book ∧ (F.cars[(0 : CarId)]).holds.reversal = true ∧ failed F 1010 0 = none ∧
       (F.currentOf 0).map (fun x => x.2.retireOnStop) = some (some .keyLost)) ∧
    (let F := (hold (fleet 60) 0 { warrant 0 with state := .suspended, expiry := none }).addHold 0 .reversal
     F.Book ∧ (F.cars[(0 : CarId)]).holds.reversal = true ∧ failed F 1010 0 = none ∧ F.currentOf 0 = none ∧
       (F.cars[(0 : CarId)]).stack = [⟨0, 1⟩]) :=
  ⟨⟨book_of_holds (by decide +kernel), by decide +kernel, by decide +kernel, by decide +kernel⟩,
    book_of_holds (by decide +kernel), by decide +kernel, by decide +kernel, by decide +kernel, by decide +kernel⟩

/-- A report at standstill that ends a run-out in which the current warrant supervises, 490 mm short of the end of its track
and so within the warning lead of 500; one at 1,000 is not within it. -/
theorem met_ReportRecordsReadings_alone :
    aloneFleet.Book ∧ (aloneFleet.cars[(0 : CarId)]).holds.reversal = true ∧ (aloneFleet.cars[(0 : CarId)]).stack = [] ∧
    failed aloneFleet 990 0 = none ∧
    (aloneFleet.currentOf 0).map (fun x => (x.2.state, x.2.retireOnStop, x.2.warned)) = some (.granted, none, false) ∧
    (∀ x ∈ [990, 1000], ((warn (recordReport world aloneFleet 0 [x] 0) 0).currentOf 0).map (fun x => x.2.warned) =
      some (decide (x < 1000))) :=
  ⟨book_of_holds (by decide +kernel), by decide +kernel, by decide +kernel, by decide +kernel, by decide +kernel,
    by decide +kernel⟩

/-- R59, R122, R123: that report warns, and keeps the flag when it ends the run-out. -/
theorem test_report_warns_in_run_out :
    (after (.report .openPort) (offer .openPort 0x01 (encodeReport { carriage := 0, positions := [990], speed := 0 })
      (machine world aloneFleet))).map (fun t => ((t.records.fleet.cars[(0 : CarId)]).holds.reversal,
        (t.records.fleet.slots[(0 : SlotId)]).warrant.map Warrant.warned)) = some (false, some true) := by decide +kernel

/-- A carriage 500 ms after its report, and a warrant at its expiry tick. -/
theorem met_ExpiriesTakeEffect :
    ((idle.records.fleet.cars[(0 : CarId)]).state = .standing ∧ (idle.records.fleet.cars[(0 : CarId)]).mute = false ∧
      (idle.records.fleet.cars[(0 : CarId)]).last = some { positions := [1000], speed := 0, tick := 500 } ∧
      ((idle.records.fleet.cars[(0 : CarId)]).cfg.reportInterval : Int) ≤ sinceTick idle.records.world.now 500) ∧
    ((granted.records.fleet.slots[(0 : SlotId)]).warrant = some (warrant 0) ∧ (warrant 0).state = .granted ∧
      (warrant 0).expiry = some 900 ∧ 0 ≤ sinceTick 900 900 ∧ 0 ≤ sinceTick granted.records.world.now 900) := by
  decide +kernel

/-! ## Warrants -/

/-- An `ask` body for carriage 0. -/
def askBody (target cls : Nat) : AskBody := { carriage := 0, target := target, cls := cls, lifetime := 0 }

/-- The extent of carriage 0. -/
def pose : Pose := { reference := 1000, skew := 0, lower := 500, upper := 1500 }

theorem noHold : ∀ x : Cause, HoldSet.empty.has x = false := by intro x; cases x <;> rfl

/-- One position above the upper end, UP; one below the lower end, DOWN; each on a carriage that may ask. -/
theorem met_AskGrantsWarrant :
    (∀ q, Offered (offer .openPort 0x02 (encodeAsk q) idle) (.ask .openPort) .openPort (frame 0x02 (encodeAsk q)) []) ∧
    (∀ t ∈ [1501, 499], decodeAsk (encodeAsk (askBody t 1)) = some (askBody t 1) ∧ t ≤ 1048575) ∧
    (askBody 1501 1).cls = Cls.auto.code ∧ idle.records.world.map.locked = true ∧
    (fleet 0).cars[(0 : CarId)].state = .standing ∧
    (∀ x : Cause, x ≠ .trip → ((fleet 0).cars[(0 : CarId)]).holds.has x = false) ∧ (fleet 0).currentOf 0 = none ∧
    ((fleet 0).slots[(0 : SlotId)]).warrant = none ∧ (∀ j : SlotId, j < 0 → ((fleet 0).slots[j]).warrant ≠ none) ∧
    ((fleet 0).cars[(0 : CarId)]).pose = some pose ∧
    (pose.upper < min (1501 : Int) (runOf world (fleet 0) 0).last ∧
      (walk world (fleet 0) (walkTo 1501)).gains (walkTo 1501) = true) ∧
    (min (499 : Int) (runOf world (fleet 0) 0).last < pose.lower ∧
      let down : WalkPlan := { walkTo 499 with dir := .down, base := 500 }
      (walk world (fleet 0) down).gains down = true) :=
  ⟨fun _ => offered .openPort 0x02 _ rfl, by decide, by decide, rfl, rfl, fun x _ => by cases x <;> decide +kernel,
    by decide +kernel, by decide +kernel, by decide +kernel, by decide +kernel, by decide +kernel, by decide +kernel⟩

/-- The GRANTED warrant of carriage 0 is of class AUTO; slot 1 is the lowest free one. -/
theorem met_AskPreemptsWarrant :
    let F := granted.records.fleet
    Offered (offer .assured 0x02 (encodeAsk (askBody 499 4)) granted) (.ask .assured) .assured
      (frame 0x02 (encodeAsk (askBody 499 4))) [] ∧
    decodeAsk (encodeAsk (askBody 499 4)) = some (askBody 499 4) ∧ granted.records.world.map.locked = true ∧
    (F.cars[(0 : CarId)]).state = .standing ∧ (∀ x : Cause, x ≠ .trip → (F.cars[(0 : CarId)]).holds.has x = false) ∧
    F.currentOf 0 = some (0, warrant 0) ∧ (warrant 0).cls ≠ .emergency ∧ (F.cars[(0 : CarId)]).stack.length < 3 ∧
    (F.slots[(1 : SlotId)]).warrant = none ∧ (∀ l : SlotId, l < 1 → (F.slots[l]).warrant ≠ none) ∧
    (F.cars[(0 : CarId)]).pose = some pose ∧ min (499 : Int) (runOf world F 0).last < pose.lower ∧
    (let plan : WalkPlan := { walkTo 499 with cls := .emergency, dir := .down, base := 500 }
     (walk world F plan).gains plan = true) :=
  ⟨offered .assured 0x02 _ rfl, by decide, rfl, by decide +kernel, fun x _ => by cases x <;> decide +kernel,
    by decide +kernel, by decide, by decide +kernel, by decide +kernel, by decide +kernel, by decide +kernel,
    by decide +kernel, by decide +kernel⟩

/-- A carriage number and a target one too high, an UNLOCKED map, a target at each end of the extent, and a walk that
gains no track: MAINTENANCE on a run whose window is closed. -/
theorem met_AskRefusedInOrder :
    (∀ s q, s.resetLine = false →
      Offered (offer .openPort 0x02 (encodeAsk q) s) (.ask .openPort) .openPort (frame 0x02 (encodeAsk q)) []) ∧
    decodeAsk (encodeAsk { askBody 2000 1 with carriage := 16 }) = some { askBody 2000 1 with carriage := 16 } ∧
    decodeAsk (encodeAsk (askBody 1048576 1)) = some (askBody 1048576 1) ∧
    firstRefusal [(openWorld.map.locked = false, .unlocked)] .unlocked ∧
    (∀ t ∈ [(500 : Int), 1500], pose.lower ≤ t ∧ t ≤ pose.upper) ∧
    (granted.records.fleet.currentOf 0 = some (0, warrant 0)) ∧
    ((idle.records.fleet.cars[(1 : CarId)]).state = .unconfigured ∧ (idle.records.fleet.cars[(1 : CarId)]).pose = none ∧
      decodeAsk (encodeAsk { askBody 2000 1 with carriage := 1 }) = some { askBody 2000 1 with carriage := 1 }) ∧
    (walk world (fleet 0) { walkTo 7500 with cls := .maintenance }).gains { walkTo 7500 with cls := .maintenance } = false :=
  ⟨fun _ _ h => offered .openPort 0x02 _ h, by decide, by decide, .inl ⟨rfl, rfl⟩, by decide, by decide +kernel,
    by decide +kernel, by decide +kernel⟩

/-- Slot 48 and slot 47, the last point and one beyond, a stale generation, and a warrant of another station. -/
theorem met_HandleChecksRefuse :
    (∀ q, Offered (offer .openPort 0x03 (encodePoint q) granted) (.extend .openPort) .openPort
      (frame 0x03 (encodePoint q)) []) ∧
    (∀ q, Offered (offer .openPort 0x06 (encodeHandle q) granted) (.confirm .openPort) .openPort
      (frame 0x06 (encodeHandle q)) []) ∧
    (∀ q ∈ [(⟨48, 1, 1048575⟩ : PointBody), ⟨47, 1, 1048576⟩], decodePoint (encodePoint q) = some q) ∧
    granted.records.fleet.live { slot := 0, generation := BitVec.ofNat 8 2 } = none ∧
    granted.records.fleet.live { slot := 0, generation := BitVec.ofNat 8 1 } = some (warrant 0) ∧
    (warrant 0).origin ≠ .openPort ({ frame 0x06 [] with station := 2 } : Frame).station :=
  ⟨fun _ => offered .openPort 0x03 _ rfl, fun _ => offered .openPort 0x06 _ rfl, by decide, by decide +kernel,
    by decide +kernel, by decide⟩

/-- The warrant of carriage 0 as its walk sees it when it is extended. -/
def extendTo (target : Int) : WalkPlan :=
  { car := 0, cls := .auto, dir := .up, base := 7500, target := target, oldSpan := none
    ownSpan := some (min (track.numAt 0) (track.numAt 7500), max (track.numAt 0) (track.numAt 7500))
    met := bayOfConfirm track .up none }

/-- A target at the limit, one beyond it that the walk gains, and one that a bay out of service stops. -/
theorem met_ExtendLengthensWarrant :
    let F := granted.records.fleet
    (∀ x, Offered (offer .openPort 0x03 (encodePoint ⟨0, 1, x⟩) granted) (.extend .openPort) .openPort
      (frame 0x03 (encodePoint ⟨0, 1, x⟩)) []) ∧
    (∀ x ∈ [7500, 7501, 8000], decodePoint (encodePoint ⟨0, 1, x⟩) = some ⟨0, 1, x⟩ ∧ x ≤ 1048575) ∧
    F.live { slot := 0, generation := BitVec.ofNat 8 1 } = some (warrant 0) ∧
    (warrant 0).origin = .openPort (frame 0x03 []).station ∧ beyond .up 7500 (warrant 0).limit = false ∧
    noRefusal [((warrant 0).state = .suspended ∨ (warrant 0).retireOnStop ≠ none, .badState),
       ((∃ x : Cause, (F.cars[(warrant 0).carriage]).holds.has x = true), .held),
       (beyond .up 7501 (warrant 0).limit = false, .badTarget)] ∧
    (walk world F (extendTo 7501)).gains (extendTo 7501) = true ∧
    (let W : World := { world with map := { world.map with
       runs := runs.set 0 { track with bays := track.bays.set 1 { bay (.celled 1000 4) false with inService := false } } } }
     (walk W F { extendTo 8000 with base := 7999 }).gains { extendTo 8000 with base := 7999 } = true) ∧
    (let W : World := { world with map := { world.map with
       runs := runs.set 0 { track with bays := track.bays.set 2 { bay (.plain 6000) true with inService := false } } } }
     (walk W F { extendTo 8000 with base := 7999 }).gains { extendTo 8000 with base := 7999 } = false) := by
  refine ⟨fun _ => offered .openPort 0x03 _ rfl, by decide, by decide +kernel, rfl, by decide, ?_, by decide +kernel,
    by decide +kernel, by decide +kernel⟩
  have e : (granted.records.fleet.cars[(warrant 0).carriage]).holds = HoldSet.empty := by decide +kernel
  simp only [noRefusal, List.forall_mem_cons, List.not_mem_nil, false_imp_iff, implies_true, and_true]
  refine ⟨by decide, ?_, by decide⟩
  rw [e]
  rintro ⟨x, hx⟩
  exact absurd hx (by simp [noHold x])

/-- A limit that is not nearer, one that is, one behind the floor, and a floor beyond the limit. -/
theorem met_TrimShortensWarrant :
    (∀ x, Offered (offer .openPort 0x04 (encodePoint ⟨0, 1, x⟩) granted) (.trim .openPort) .openPort
      (frame 0x04 (encodePoint ⟨0, 1, x⟩)) []) ∧
    (∀ x ∈ [7500, 7499, 3998], decodePoint (encodePoint ⟨0, 1, x⟩) = some ⟨0, 1, x⟩ ∧ x ≤ 1048575) ∧
    granted.records.fleet.live { slot := 0, generation := BitVec.ofNat 8 1 } = some (warrant 0) ∧
    beyond .up (warrant 0).limit 7500 = false ∧ beyond .up (warrant 0).limit 7499 = true ∧
    roundedFront world granted.records.fleet 0 .up = 3999 ∧ beyond .up 3999 3998 = true ∧
    trimTaken world granted.records.fleet { warrant 0 with limit := 3000 } 2000 = 3000 :=
  ⟨fun _ => offered .openPort 0x04 _ rfl, by decide, by decide +kernel, by decide, by decide, by decide +kernel, by decide,
    by decide +kernel⟩

/-- The moving carriage 0, mute or not, with a GRANTED warrant that a trip has marked. -/
def markedFleet (mute : Bool) : Fleet :=
  let F := hold (fleet 100) 0 { warrant 0 with retireOnStop := some .tripped }
  { F with cars := F.cars.set 0 { F.cars[(0 : CarId)] with mute := mute, holds := { HoldSet.empty with mute := mute } } }

/-- A GRANTED warrant of a standing carriage, and of a moving one an ACTIVE, a GRANTED and a SUSPENDED warrant, unmarked and
marked; and a marked GRANTED one of a moving carriage, mute and not. -/
theorem met_ReleaseRetiresOrMarks :
    (∀ s, s.resetLine = false → Offered (offer .openPort 0x05 [0, 1] s) (.release .openPort) .openPort (frame 0x05 [0, 1]) []) ∧
    decodeHandle [0, 1] = some ⟨0, 1⟩ ∧
    granted.records.fleet.live { slot := 0, generation := BitVec.ofNat 8 1 } = some (warrant 0) ∧
    (warrant 0).state ≠ .active ∧ (warrant 0).retireOnStop = none ∧
    ((granted.records.fleet.cars[(0 : CarId)]).last.map (fun l => l.speed.natAbs)).getD 0 ≤ 5 ∧
    (let F := hold (fleet 6) 0 { warrant 0 with state := .active, expiry := none }
     F.live { slot := 0, generation := BitVec.ofNat 8 1 } = some { warrant 0 with state := .active, expiry := none } ∧
       5 < ((F.cars[(0 : CarId)]).last.map (fun l => l.speed.natAbs)).getD 0) ∧
    (∀ st ∈ [WarrantState.granted, .active, .suspended], ∀ m ∈ [none, some Reason.tripped],
      let w := { warrant 0 with state := st, expiry := none, retireOnStop := m }
      (hold (fleet 6) 0 w).live { slot := 0, generation := BitVec.ofNat 8 1 } = some w) ∧
    (∀ m ∈ [true, false], ((markedFleet m).cars[(0 : CarId)]).mute = m ∧
      (markedFleet m).live { slot := 0, generation := BitVec.ofNat 8 1 } =
        some { warrant 0 with retireOnStop := some .tripped }) :=
  ⟨fun _ h => offered .openPort 0x05 _ h, by decide, by decide +kernel, by decide, by decide, by decide +kernel,
    by decide +kernel, by decide +kernel, by decide +kernel⟩

/-- A warrant with no confirm point, and one with a confirm point. -/
theorem met_ConfirmRemovesPoint :
    (∀ s, s.resetLine = false → Offered (offer .openPort 0x06 [0, 1] s) (.confirm .openPort) .openPort (frame 0x06 [0, 1]) []) ∧
    decodeHandle [0, 1] = some ⟨0, 1⟩ ∧
    granted.records.fleet.live { slot := 0, generation := BitVec.ofNat 8 1 } = some (warrant 0) ∧ (warrant 0).confirm = none ∧
    (hold (fleet 0) 0 { warrant 0 with confirm := some 7000 }).live { slot := 0, generation := BitVec.ofNat 8 1 } =
      some { warrant 0 with confirm := some 7000 } ∧
    (warrant 0).origin = .openPort (frame 0x06 [0, 1]).station :=
  ⟨fun _ h => offered .openPort 0x06 _ h, by decide, by decide +kernel, rfl, by decide +kernel, rfl⟩

/-- Carriage 2 of the busy fleet has a SUSPENDED warrant on its stack and nothing else; carriage 0 a current one. -/
theorem met_ResumptionTakesTop :
    (busyFleet.cars[(0 : CarId)]).current ≠ none ∧
    (let car := busyFleet.cars[(2 : CarId)]
     let w : Warrant := { warrant 2 with state := .suspended, expiry := none }
     car.current = none ∧ car.stack = [] ++ [⟨2, 1⟩] ∧ car.state ≠ .tripped ∧ car.holds = HoldSet.empty ∧
       busyFleet.live ⟨2, 1⟩ = some w ∧ w.carriage = 2 ∧ w.retireOnStop = none ∧
       beyond w.dir w.limit (car.lead w.dir) = true ∧
       (let plan : WalkPlan := { car := 2, cls := .auto, dir := .up, base := 1500, target := 9000, oldSpan := some (0, 4)
                                 ownSpan := some (0, 4), met := none }
        (walk world busyFleet plan).gains plan = true)) := by
  decide +kernel

/-- The three ways a top entry is disposed of: marked, its limit behind the leading end, and a walk that GALE stops. -/
theorem met_ResumptionTakesTop_disposal :
    let top := fun (w : Warrant) => hold (fleet 0) 0 { w with state := .suspended, expiry := none }
    (∀ w ∈ [{ warrant 0 with retireOnStop := some .tripped }, { warrant 0 with limit := 1500 }, warrant 0],
      ((top w).cars[(0 : CarId)]).stack = [] ++ [⟨0, 1⟩] ∧ ((top w).cars[(0 : CarId)]).current = none ∧
        (top w).live ⟨0, 1⟩ = some { w with state := .suspended, expiry := none }) ∧
    beyond .up 1500 (((top (warrant 0)).cars[(0 : CarId)]).lead .up) = false ∧
    (let plan : WalkPlan := { car := 0, cls := .auto, dir := .up, base := 1500, target := 9000, oldSpan := some (0, 4)
                              ownSpan := some (0, 4), met := none }
     (walk { world with wind := { world.wind with state := .gale } } (top (warrant 0)) plan).gains plan = false) := by
  decide +kernel

/-! ## Holds and trips -/

/-- One configured carriage, one UNCONFIGURED one and ALL; the causes HOLD and ESTOP on each port, the line asserted or
not. -/
theorem met_HoldAndUnhold :
    (∀ p x, Offered (offer p 0x07 (encodeByte x) idle) (.hold p) p (frame 0x07 (encodeByte x)) []) ∧
    (∀ p q, Offered (offer p 0x08 (encodePair q) idle) (.unhold p) p (frame 0x08 (encodePair q)) []) ∧
    (∀ x ∈ [(0 : CarId).val, (1 : CarId).val, 255], decodeByte (encodeByte x) = some x ∧
      decodePair (encodePair ⟨x, 0⟩) = some ⟨x, 0⟩ ∧ decodePair (encodePair ⟨x, 1⟩) = some ⟨x, 1⟩) ∧
    (idle.records.fleet.cars[(0 : CarId)]).configured = true ∧ (idle.records.fleet.cars[(1 : CarId)]).configured = false ∧
    idle.records.world.estopLine = false ∧ (machine { world with estopLine := true } (fleet 0)).records.world.estopLine = true ∧
    busyFleet.Book ∧
    (∀ x ∈ [16, 254], decodeByte (encodeByte x) = some x ∧ decodePair (encodePair ⟨x, 0⟩) = some ⟨x, 0⟩) ∧
    decodePair (encodePair ⟨0, 2⟩) = some ⟨0, 2⟩ :=
  ⟨fun p _ => offered p 0x07 _ rfl, fun p _ => offered p 0x08 _ rfl, by decide, by decide +kernel, by decide +kernel, rfl, rfl,
    busy_book, by decide, by decide⟩

/-- Carriage 1 of the busy fleet, TRIPPED OVERSPEED while moving, at standstill, and on the Open Port with SKEW; an
UNCONFIGURED carriage and one that is not TRIPPED. -/
theorem met_ClearEndsTrip :
    (∀ p s x, s.resetLine = false → Offered (offer p 0x09 (encodeByte x) s) (.clear p) p (frame 0x09 (encodeByte x)) []) ∧
    (∀ x ∈ [15, 16], decodeByte (encodeByte x) = some x) ∧ 15 = (15 : CarId).val ∧
    (busyFleet.cars[(15 : CarId)]).state = .unconfigured ∧ (busyFleet.cars[(0 : CarId)]).state = .standing ∧
    (busyFleet.cars[(1 : CarId)]).state = .tripped ∧
    (busyFleet.cars[(1 : CarId)]).trip = some { kind := .overspeed, tick := 400, further := 0 } ∧
    5 < ((busyFleet.cars[(1 : CarId)]).last.map (fun l => l.speed.natAbs)).getD 0 ∧
    (let k : Carriage := { carriage 0 0 with state := .tripped, trip := some { kind := .overspeed, tick := 400, further := 0 } }
     noRefusal [(Port.openPort = .openPort ∧ TripKind.overspeed ∈ [.skew, .offRun, .intrusion, .overrun, .condition, .service], Status.portDenied),
       (5 < (k.last.map (fun l => l.speed.natAbs)).getD 0, .notStopped),
       (False, .stillPresent)]) ∧
    (Port.openPort = .openPort ∧ TripKind.skew ∈ [.skew, .offRun, .intrusion, .overrun, .condition, .service]) := by
  refine ⟨fun p _ _ h => offered p 0x09 _ h, by decide, rfl, by decide +kernel, by decide +kernel, by decide +kernel,
    by decide +kernel, by decide +kernel, ?_, by decide⟩
  simp only [noRefusal, List.forall_mem_cons, List.not_mem_nil, false_imp_iff, implies_true, and_true]
  exact ⟨by decide, by decide, id⟩

/-- R160: for each kind that can still fail, a last report that does and, for those with a bound, one at the bound that does
not. -/
theorem met_ClearEndsTrip_kinds :
    let at' := fun (p : Pose) => { fleet 0 with cars := (fleet 0).cars.set 0 { carriage 0 0 with pose := some p } }
    let confirmed := fun (x : Int) => hold (fleet 0) 0 { warrant 0 with confirm := some x }
    let W := fun (f : Bay → Bay) =>
      { world with map := { world.map with runs := runs.set 0 { track with bays := track.bays.modify 0 f } } }
    (∀ x ∈ [10, 11], stillFails world (at' { pose with skew := x }) 0 .skew = decide (10 < x)) ∧
    (∀ x ∈ [13999, 14000], stillFails world (at' { pose with upper := x }) 0 .offRun = decide (13999 < x)) ∧
    stillFails world { fleet 0 with cars := (fleet 0).cars.set 3 (carriage 0 0) } 0 .intrusion = true ∧
    (∀ x ∈ [1500, 1499], stillFails world (confirmed x) 0 .overrun = decide (x < 1500) ∧
      stillFails world (confirmed x) 0 .brakeCurve = decide (x < 1500)) ∧
    stillFails world (fleet 0) 0 .overrun = false ∧
    stillFails (W (fun b => { b with condition := some 3 })) (fleet 0) 0 .condition = true ∧
    stillFails (W (fun b => { b with inService := false })) (fleet 0) 0 .service = true ∧
    stillFails world (fleet 0) 0 .service = false := by decide +kernel

/-- A wrong length, the Open Port, number 16, an UNCONFIGURED carriage and a TRIPPED one. -/
theorem met_RestoreClearsDownshift :
    (∀ p body, Offered (offer p 0x29 body busyMachine) (.restore p) p (frame 0x29 body) []) ∧
    ([] : List Byte).length ≠ 1 ∧ decodeByte [16] = some 16 ∧ decodeByte [15] = some (15 : CarId).val ∧
    decodeByte [1] = some (1 : CarId).val ∧ (busyFleet.cars[(15 : CarId)]).state = .unconfigured ∧
    (busyFleet.cars[(1 : CarId)]).state = .tripped :=
  ⟨fun p _ => offered p 0x29 _ rfl, by decide, by decide, by decide, by decide, by decide +kernel, by decide +kernel⟩

/-! ## Conditions, wind, maintenance, notices, lines -/

/-- A wind record 10,000 ms after its last `wind`, and one short of it; the STORM line asserted and released. -/
theorem met_WindStateChangesAct :
    (∀ q, Offered (offer .openPort 0x0A (encodeWind q) idle) (.wind .openPort) .openPort (frame 0x0A (encodeWind q)) []) ∧
    (∀ g ∈ [999, 1000], decodeWind (encodeWind ⟨0, g⟩) = some ⟨0, g⟩) ∧
    idle.resetLine = false ∧ (Wind.initial.timeout : Int) ≤ sinceTick 10000 0 ∧
    ¬(Wind.initial.timeout : Int) ≤ sinceTick 9999 0 ∧ ({ world.wind with stormLine := true } : Wind).stormLine = true ∧
    world.wind.stormLine = false ∧ world.wind.state ≠ .unknown :=
  ⟨fun _ => offered .openPort 0x0A _ rfl, by decide, rfl, by decide, by decide, rfl, rfl, by decide⟩

/-- A rise into GALE from CALM on an EXPOSED run, with a current warrant that opens and whose cut moves its limit, one whose
cut keeps it, one that closes, a SUSPENDED one, and the SUSPENDED one that supervises a run-out; no KEY_LOST. -/
theorem met_WindStateChangesAct_rise :
    let W : World := { world with wind := { world.wind with state := .gale } }
    WindState.calm.rank < W.wind.state.rank ∧ (WindState.calm.rank ≤ 1 ∧ 2 ≤ W.wind.state.rank) ∧
    (busyFleet.Book ∧ (∀ c : CarId, (busyFleet.cars[c]).holds.keyLost = false)) ∧
    ((busyFleet.slots[(0 : SlotId)]).warrant = some (warrant 0) ∧ windMeets W busyFleet (warrant 0) = true ∧
      cutLimit W busyFleet (warrant 0) ≠ (warrant 0).limit ∧
      cutLimit W busyFleet { warrant 0 with limit := 3999 } = 3999 ∧
      windMeets W busyFleet { warrant 0 with dir := .down } = false) ∧
    (let w := { warrant 2 with state := .suspended, expiry := none }
     (busyFleet.slots[(2 : SlotId)]).warrant = some w ∧ windMeets W busyFleet w = true ∧
       (busyFleet.cars[(2 : CarId)]).holds.reversal = false) ∧
    ((runOutFleet.cars[(0 : CarId)]).stack.getLast? = some (runOutFleet.handleOf 0) ∧
      (runOutFleet.cars[(0 : CarId)]).front = runOutFleet.frontNow 0 ∧
      windMeets W runOutFleet { warrant 0 with state := .suspended, expiry := none } = true) :=
  ⟨by decide, by decide, ⟨busy_book, by decide +kernel⟩, by decide +kernel, by decide +kernel, by decide +kernel⟩

/-- Settings at their bounds and one beyond; a run set with an AUTO warrant live on it and one without; the key present and
absent. -/
theorem met_SettingsAndWindowsWritten :
    (∀ q, Offered (offer .assured 0x24 (encodeSetWind q) granted) (.setwind .assured) .assured (frame 0x24 (encodeSetWind q)) []) ∧
    (∀ x ∈ [30000, 30001], decodeSetWind (encodeSetWind ⟨0, 1, 999, 1000, 1, x⟩) = some ⟨0, 1, 999, 1000, 1, x⟩) ∧
    (∀ x, Offered (offer .assured 0x27 (encodeByte x) granted) (.maint .assured) .assured (frame 0x27 (encodeByte x)) []) ∧
    (∀ x, Offered (offer .assured 0x28 (encodeByte x) granted) (.endmaint .assured) .assured (frame 0x28 (encodeByte x)) []) ∧
    decodeByte [1] = some 1 ∧ decodeByte [2] = some 2 ∧ (granted.records.fleet.slots[(0 : SlotId)]).warrant = some (warrant 0) ∧
    Nat.testBit 1 (granted.records.fleet.cars[(0 : CarId)]).cfg.run.val = true ∧
    Nat.testBit 2 (granted.records.fleet.cars[(0 : CarId)]).cfg.run.val = false ∧
    granted.records.world.keyPresent = false ∧ ({ world with keyPresent := true } : World).keyPresent = true :=
  ⟨fun _ => offered .assured 0x24 _ rfl, by decide, fun _ => offered .assured 0x27 _ rfl, fun _ => offered .assured 0x28 _ rfl,
    by decide, by decide, by decide +kernel, by decide +kernel, by decide +kernel, rfl, rfl⟩

/-- Conditions 7, 8, 15 and 16, and the value 2; a fleet with no warrant. -/
theorem met_ConditionChangesAct :
    idle.resetLine = false ∧
    (∀ q, Offered (offer .assured 0x25 (encodePair q) idle) (.cond .assured) .assured (frame 0x25 (encodePair q)) []) ∧
    (∀ x ∈ [7, 8, 15, 16], ∀ v ∈ [0, 1, 2], decodePair (encodePair ⟨x, v⟩) = some ⟨x, v⟩) ∧
    8 = (8 : CondId).val ∧ 15 = (15 : CondId).val ∧ (∀ i : SlotId, ((fleet 0).slots[i]).warrant = none) :=
  ⟨rfl, fun _ => offered .assured 0x25 _ rfl, by decide, rfl, rfl, by decide +kernel⟩

/-- What a cut to unit of bay `b` of run 0 first affects on the way of a warrant of slot 0 whose base is `base`. -/
def cutMeets (F : Fleet) (w : Warrant) (b : Nat) (base : Int) : Option TrackUnit :=
  ((inOrder w.dir (spanUnits world F w)).filter (fun u => beyond w.dir (u.far w.dir) base)).find?
    (fun u => decide (b = u.bay))

/-- The clauses of one cut: bay 2 affects nothing; bay 1 stands beyond the front and leaves track; for a front of 4,000 it
trips; bay 0, where the carriage stands, trips; a warrant whose rear is unit 4 is left no track, standing and moving; a
suspended warrant is affected in its rear unit, beyond it, and not at all. -/
theorem met_ConditionChangesAct_cut :
    let F := underWarrant (warrant 0)
    (F.Book ∧ F.live ⟨0, 1⟩ = some (warrant 0) ∧ F.live ⟨1, 1⟩ = none) ∧
    cutMeets F (warrant 0) 2 1500 = none ∧
    (∃ u, cutMeets F (warrant 0) 1 1500 = some u ∧ u.near .up = 4000 ∧ atOrBeyond .up 1500 4000 = false ∧
      beyond .up 3999 1500 = true ∧ beyond .up (warrant 0).rear 3999 = false ∧ atOrBeyond .up 4000 4000 = true) ∧
    (∃ u, cutMeets F (warrant 0) 0 1500 = some u ∧ u.near .up = 0) ∧
    (∃ u, cutMeets (underWarrant { warrant 0 with rear := 4000 }) { warrant 0 with rear := 4000 } 1 1500 = some u ∧
      u.near .up = 4000 ∧ beyond .up 4000 3999 = true) ∧
    (let w := { warrant 0 with state := .suspended, expiry := none }
     (underWarrant w).live ⟨0, 1⟩ = some w ∧ ((underWarrant w).cars[(0 : CarId)]).holds.reversal = false ∧
       track.numAt w.rear = 0 ∧ ((spanUnits world (underWarrant w) w).find? (fun u => decide (1 = u.bay))).map TrackUnit.num = some 1 ∧
       (spanUnits world (underWarrant w) w).find? (fun u => decide (2 = u.bay)) = none) := by
  refine ⟨⟨book_of_holds (by decide +kernel), by decide +kernel, by decide +kernel⟩, by decide +kernel,
    ⟨{ num := 1, bay := 1, first := 4000, stop := 5000 }, by decide +kernel⟩, ?_, ?_, by decide +kernel⟩
  · exact ⟨{ num := 0, bay := 0, first := 0, stop := 4000 }, by decide +kernel⟩
  · exact ⟨{ num := 1, bay := 1, first := 4000, stop := 5000 }, by decide +kernel⟩

theorem met_NoticesCollectedAndMasked :
    (∀ p, Offered (offer p 0x0C [] idle) (.notices p) p (frame 0x0C []) []) ∧
    Offered (offer .assured 0x26 (List.replicate 15 1) idle) (.mask .assured) .assured (frame 0x26 (List.replicate 15 1)) [] ∧
    decodeMask (List.replicate 15 1) = some (List.replicate 15 true) :=
  ⟨fun p => offered p 0x0C _ rfl, offered .assured 0x26 _ rfl, by decide⟩

/-- The last number of each subject, the first beyond it, and a subject that is none. -/
theorem met_PeekChangesNothing :
    (∀ q, Offered (offer .openPort 0x0B (encodeTriple q) idle) (.peek .openPort) .openPort (frame 0x0B (encodeTriple q)) []) ∧
    (∀ q ∈ [(⟨1, 47, 0⟩ : TripleBody), ⟨1, 48, 0⟩, ⟨2, 15, 0⟩, ⟨3, 7, 255⟩, ⟨4, 7, 47⟩, ⟨4, 7, 48⟩, ⟨5, 31, 0⟩, ⟨6, 0, 0⟩,
      ⟨7, 0, 0⟩, ⟨8, 0, 0⟩], decodeTriple (encodeTriple q) = some q) ∧
    (∀ c : CarId, (idle.records.fleet.cars[c]).cfg.offsets.length ≤ 8 ∧ (idle.records.fleet.cars[c]).stack.length ≤ 3 ∧
      (idle.records.fleet.cars[c]).last.all (fun l => decide (l.positions.length ≤ 8)) = true) :=
  ⟨fun _ => offered .openPort 0x0B _ rfl, by decide, by decide +kernel⟩

theorem met_RestartKeepsMap :
    Offered (offer .assured 0x2A [] busyMachine) (.restart .assured) .assured (frame 0x2A []) [] ∧
    (offer .assured 0x2A [] busyMachine).records.fleet.Book ∧ (offer .assured 0x2A [] busyMachine).records.fleet.Lists ∧
    ((busyFleet.slots[(2 : SlotId)]).warrant.any (fun w => w.carriage == 2)) = true ∧
    (∀ i : SlotId, ((busyFleet.slots[i]).warrant.any (fun w => w.carriage == 2)) = true → i ≤ 2) ∧
    (∀ i : SlotId, ¬((busyFleet.slots[i]).warrant.any (fun w => w.carriage == 3)) = true) :=
  ⟨offered .assured 0x2A _ rfl, busy_book, busy_lists, by decide +kernel, by decide +kernel, by decide +kernel⟩

/-- Three warrants: current ones of a standing and of a moving carriage, and a suspended one. -/
theorem met_EstopHoldsEveryCarriage :
    busyMachine.resetLine = false ∧ busyMachine.records.world.estopLine = false ∧ busyMachine.records.fleet.Book ∧
    busyFleet.currentOf 0 = some (0, warrant 0) ∧ (busyFleet.currentOf 1).isSome = true ∧
    (busyFleet.cars[(0 : CarId)]).configured = true ∧
    5 < ((busyFleet.cars[(1 : CarId)]).last.map (fun l => l.speed.natAbs)).getD 0 ∧
    ((busyFleet.slots[(2 : SlotId)]).warrant.any (fun w => w.state == .suspended)) = true ∧
    ((busyFleet.cars[(15 : CarId)]).configured = false ∧ (busyFleet.cars[(15 : CarId)]).current = none) :=
  ⟨rfl, rfl, busy_book, by decide +kernel, by decide +kernel, by decide +kernel, by decide +kernel, by decide +kernel,
    by decide +kernel⟩

theorem met_KeyReleaseEndsMaintenance :
    let s := machine { world with keyPresent := true } (hold (fleet 0) 0 { warrant 0 with cls := .maintenance })
    s.resetLine = false ∧ s.records.world.keyPresent = true ∧ s.records.fleet.Book ∧
    (∀ c : CarId, (s.records.fleet.cars[c]).holds.keyLost = true → (s.records.fleet.cars[c]).current ≠ none) ∧
    s.records.fleet.currentOf 0 = some (0, { warrant 0 with cls := .maintenance }) ∧
    (let w := { warrant 0 with cls := .maintenance, state := .active, expiry := none }
     (hold (fleet 60) 0 w).Book ∧ (hold (fleet 60) 0 w).currentOf 0 = some (0, w) ∧
       5 < (((hold (fleet 60) 0 w).cars[(0 : CarId)]).last.map (fun l => l.speed.natAbs)).getD 0) ∧
    (let w := { warrant 0 with cls := .maintenance, state := .suspended, expiry := none }
     (hold (fleet 0) 0 w).Book ∧ ((hold (fleet 0) 0 w).slots[(0 : SlotId)]).warrant = some w ∧
       ((hold (fleet 0) 0 w).cars[(0 : CarId)]).holds.reversal = false) ∧
    (let F := runOutFleet.modWarrant 0 (fun w => { w with cls := .maintenance })
     F.Book ∧ (F.cars[(0 : CarId)]).stack.getLast? = some (F.handleOf 0) ∧ (F.cars[(0 : CarId)]).holds.reversal = true ∧
       (F.cars[(0 : CarId)]).front = F.frontNow 0) ∧
    (∀ i : SlotId, (busyFleet.slots[i]).warrant.all (fun w => decide (w.cls ≠ .maintenance)) = true) :=
  ⟨rfl, rfl, book_of_holds (by decide +kernel), by decide +kernel, by decide +kernel,
    ⟨book_of_holds (by decide +kernel), by decide +kernel, by decide +kernel⟩,
    ⟨book_of_holds (by decide +kernel), by decide +kernel, by decide +kernel⟩,
    ⟨book_of_holds (by decide +kernel), by decide +kernel, by decide +kernel, by decide +kernel⟩, by decide +kernel⟩

theorem met_TickAndSimpleLines : idle.resetLine = false ∧ idle.lineLaw := ⟨rfl, State.drive_lineLaw _⟩

theorem met_LinesFollowRecords : busyMachine.lineLaw ∧ ∃ t, step busyMachine = .next t :=
  ⟨met_warrant_laws.1, met_warrant_laws.2.2.2.2.2.2.2.2⟩

/-! ## One step of a command on a small state -/

/-- The status and body of the last reply formed on port `p` by a command. -/
def replied (p : Port) (c : Instr) (s : State) : Option (Status × List Byte) :=
  (after c s).bind (fun t => (t.port p).replies.getLast?.map (fun r => (r.status, r.body)))

/-- 10.6, R80, R81: handle 0 generation 1, limit 7,500, no confirm point, ceiling 400, lifetime 60,000, not clamped, no
blocker. -/
theorem test_ask_reply :
    replied .openPort (.ask .openPort) (offer .openPort 0x02 (encodeAsk (askBody 7500 1)) idle) =
      some (.done, [0, 1, 0x00, 0x1D, 0x4C, 0xFF, 0xFF, 0xFF, 0x01, 0x90, 0x00, 0xEA, 0x60, 0, 0]) := by decide +kernel

/-- R72, R73: the walk into the check bay goes on under a confirm point at 7,999, one short of the bay. -/
theorem test_ask_confirm_point :
    replied .openPort (.ask .openPort) (offer .openPort 0x02 (encodeAsk (askBody 20000 1)) idle) =
      some (.done, [0, 1, 0x00, 0x36, 0xAF, 0x00, 0x1F, 0x3F, 0x01, 0x90, 0x00, 0xEA, 0x60, 1, 0]) := by decide +kernel

/-- R31, R60: a speed above 2,000 is clamped, and with no warrant trips UNWARRANTED; HOLD0 is asserted. -/
theorem test_report_unwarranted :
    replied .openPort (.report .openPort)
      (offer .openPort 0x01 (encodeReport { carriage := 0, positions := [1200], speed := 2400 }) idle) =
      some (.clamped, [5, 8, 0, 0xFF, 0]) := by decide +kernel

/-- R95: a report above standstill in the direction of a GRANTED warrant makes it ACTIVE. -/
theorem test_report_activates :
    (after (.report .openPort)
      (offer .openPort 0x01 (encodeReport { carriage := 0, positions := [1200], speed := 6 }) granted)).map
        (fun t => ((t.records.fleet.slots[(0 : SlotId)]).warrant.map (fun w => (w.state, w.expiry)))) =
      some (some (.active, none)) := by decide +kernel

/-- R58, R95: a report that passes leaves the warrant GRANTED after a trip REVERSE, and activates it after another. -/
theorem test_report_after_reverse :
    [TripKind.reverse, TripKind.overspeed].map (fun kind => (after (.report .openPort)
      (offer .openPort 0x01 (encodeReport { carriage := 0, positions := [1200], speed := 6 })
        (machine world (trippedUnder kind)))).map (fun t =>
          ((t.records.fleet.slots[(0 : SlotId)]).warrant.map Warrant.state))) =
      [some (some .granted), some (some .active)] := by decide +kernel

/-- R84, R85: 7,400 lies beyond the floor 3,999, so the limit taken is 7,400. -/
theorem test_trim_reply :
    replied .openPort (.trim .openPort) (offer .openPort 0x04 (encodePoint ⟨0, 1, 7400⟩) granted) =
      some (.done, [0x00, 0x1C, 0xE8, 0xFF, 0xFF, 0xFF, 0x01, 0x90]) := by decide +kernel

/-- R86: a GRANTED warrant retires at once. -/
theorem test_release_reply :
    replied .openPort (.release .openPort) (offer .openPort 0x05 [0, 1] granted) = some (.done, [1]) := by decide +kernel

/-- R100: the `release` of a marked GRANTED warrant of a moving, mute carriage, which reports no more, retires it at once. -/
theorem test_release_marked_mute :
    replied .openPort (.release .openPort) (offer .openPort 0x05 [0, 1] (machine world (markedFleet true))) =
      some (.done, [1]) := by decide +kernel

/-- R113, R162: on a moving carriage that reports it is cut again to 3,999, keeps TRIPPED and is answered STOPPING. -/
theorem test_release_marked :
    let s := offer .openPort 0x05 [0, 1] (machine world (markedFleet false))
    replied .openPort (.release .openPort) s = some (.done, [2]) ∧
    (after (.release .openPort) s).map (fun t =>
      (t.records.fleet.slots[(0 : SlotId)]).warrant.map (fun w => (w.limit, w.retireOnStop))) =
      some (some (3999, some .tripped)) := by decide +kernel

/-- R16, R106, R108: bay 1 (units 1 to 4) out of service cuts the warrant to 3,999, short of the bay. -/
theorem test_service_cuts :
    (after (.service .assured) (offer .assured 0x22 (encodeTriple ⟨0, 1, 0⟩) granted)).map
      (fun t => ((t.records.fleet.slots[(0 : SlotId)]).warrant.map Warrant.limit)) = some (some 3999) := by decide +kernel

/-- R22: marks are read in bay order. -/
theorem test_marks_reply :
    replied .assured (.marks .assured) (offer .assured 0x0D [0, 1] idle) = some (.done, [0, 0, 0, 0, 0, 0]) := by
  decide +kernel

/-- R151: HOLD0 follows the cause in the same event. -/
theorem test_hold_line :
    idle.holdLines[(0 : CarId)] = false ∧
    (after (.hold .openPort) (offer .openPort 0x07 [0] idle)).map (fun t => t.holdLines[(0 : CarId)]) = some true := by
  decide +kernel

/-- R153: the standing carriage's warrant retires ESTOP. -/
theorem test_estop_retires :
    (after .estopAsserted granted).map (fun t => (t.records.fleet.cars[(0 : CarId)]).lastRetire) =
      some (some (.estop, { slot := 0, generation := 1 })) := by decide +kernel

/-- R102: a GRANTED warrant past its expiry tick retires EXPIRED and frees its slot. -/
theorem test_expiry_retires :
    (after (.warrantExpiry 0) granted).map (fun t => (t.records.fleet.slots[(0 : SlotId)])) =
      some { generation := 1, warrant := none } := by decide +kernel

/-- R41: 500 ms after the last report MUTE holds the carriage. -/
theorem test_mute_expiry :
    (after (.muteExpiry 0) idle).map (fun t => (t.records.fleet.cars[(0 : CarId)]).holds) =
      some { HoldSet.empty with mute := true } := by decide +kernel

/-- R18: the map of the tests locks; on the Open Port the request is refused. -/
theorem test_lock :
    replied .assured (.lock .assured) (offer .assured 0x20 [] unlocked) = some (.done, []) ∧
    replied .openPort (.lock .openPort) (offer .openPort 0x20 [] unlocked) = some (.portDenied, []) := by decide +kernel

/-- R178: the warrants retire RESTART and ASSURED_HOLD is added. -/
theorem test_restart :
    (after (.restart .assured) (offer .assured 0x2A [] granted)).map (fun t =>
      ((t.records.fleet.slots[(0 : SlotId)]).warrant, (t.records.fleet.cars[(0 : CarId)]).holds)) =
      some (none, { HoldSet.empty with assuredHold := true }) := by decide +kernel

/-- R180: the Tick Counter wraps. -/
theorem test_tick_wraps :
    (after .tick (machine { world with now := 4294967295 } (fleet 0))).map (fun t => t.records.world.now) = some 0 := by
  decide +kernel

/-- R173: the frame that ends its first byte's assembly is queued; a stray byte is dropped. -/
theorem test_bytes :
    (after (.byteReceived .openPort 0xA5) idle).map (fun t => t.openPort.assembling) = some [0xA5] ∧
    (after (.byteReceived .openPort 0x00) idle).map (fun t => t.openPort.assembling) = some [] := by decide +kernel

/-- R173, R176: a start byte after a whole frame in the same transfer is dropped, and clocks out the reply's last byte. -/
theorem test_byte_after_frame :
    (after (.byteReceived .assured 0xA5) taken).map (fun t => (t.assured.assembling, t.assured.replies)) =
      some ([], []) := by decide +kernel

/-- R173: a whole frame that comes 10 ms after the first byte of an old one ends that SHORT, and is queued. -/
theorem test_frame_after_gap :
    (after (.frameReceived .openPort (frameBytes 0xA5 1 7 0x20 [])) late).map (fun t =>
      (t.openPort.queue, (t.records.fleet.notices[(14 : Fin 15)]).detail.map Detail.value)) =
      some ([frame 0x20 []], some (.frameError .openPort .short)) := by decide +kernel

/-- R19: zone 1 has the undefined parent 7, so code 3 names zone 1 twice; the walk of zone 2, whose parent is zone 1, names
zones 2 and 1. -/
theorem test_lock_code_3 :
    let zone := fun (up : Option ZoneId) => { Zone.initial with defined := true, parent := up }
    let m := { openWorld.map with zones := (openWorld.map.zones.set 1 (zone (some 7))).set 2 (zone (some 1)) }
    replied .assured (.lock .assured) (offer .assured 0x20 [] (machine { openWorld with map := m } (fleet 0))) =
      some (.mapFault, [3, 1, 1]) ∧
    zoneFault m 2 = some { code := 3, first := 2, second := some 1 } := by decide +kernel

/-- R140, R141: a gust of 150 raises CALM to GALE and cuts the opening warrant of carriage 0 to its front, 3,999. -/
theorem test_wind_rise_cuts :
    (after (.wind .openPort) (offer .openPort 0x0A (encodeWind ⟨100, 150⟩) granted)).map (fun t =>
      (t.records.world.wind.state, (t.records.fleet.slots[(0 : SlotId)]).warrant.map Warrant.limit)) =
      some (.gale, some 3999) := by decide +kernel

/-- R141, R142, R111: a warrant whose limit 3,999 the cut keeps is reached, so CLOSE_CALL counts and names it, and raises no
CUT_BACK. -/
theorem test_wind_rise_keeps_limit :
    (after (.wind .openPort) (offer .openPort 0x0A (encodeWind ⟨100, 150⟩)
      (machine world (hold (fleet 0) 0 { warrant 0 with limit := 3999 })))).map (fun t =>
        ((t.records.fleet.notices[(6 : Fin 15)]).detail, (t.records.fleet.notices[(1 : Fin 15)]).pending)) =
      some (some { carriage := some 0, handle := some ⟨0, 1⟩, value := .closeCall .gale 1 }, false) := by decide +kernel

/-- R98: a standstill report 200 mm short of the limit completes the ACTIVE warrant. -/
theorem test_report_completes :
    (after (.report .openPort) (offer .openPort 0x01 (encodeReport { carriage := 0, positions := [6800], speed := 0 })
      (machine world (underWarrant { warrant 0 with state := .active, expiry := none })))).map
        (fun t => (t.records.fleet.cars[(0 : CarId)]).lastRetire) =
      some (some (.complete, { slot := 0, generation := 1 })) := by decide +kernel

end Sys2Proof.Tests
end

section
namespace Sys2Proof.Machine

/-! ## What lists and holders read of the map -/

/-- The two maps have the same lock state, zones and, run by run, the same bay shapes and bay zones: all that units,
chains and so occupancy entries and holders depend on. -/
structure SameTrack (m m' : TrackMap) : Prop where
  locked : m'.locked = m.locked
  zones : m'.zones = m.zones
  defined : ∀ r : RunId, (m'.runs[r]).defined = (m.runs[r]).defined
  bays : ∀ r : RunId,
    (m'.runs[r]).bays.map (fun b => (b.shape, b.zone)) = (m.runs[r]).bays.map (fun b => (b.shape, b.zone))

theorem SameTrack.refl (m : TrackMap) : SameTrack m m := ⟨rfl, rfl, fun _ => rfl, fun _ => rfl⟩

theorem unitsFrom_congr {bs bs' : List Bay} (h : bs'.map Bay.shape = bs.map Bay.shape) (bay num : Nat) (start : Int) :
    unitsFrom bay num start bs' = unitsFrom bay num start bs := by
  induction bs generalizing bs' bay num start with
  | nil => rw [List.map_eq_nil_iff.mp h]
  | cons b bs ih =>
    cases bs' with
    | nil => simp at h
    | cons b' bs' =>
      simp only [List.map_cons, List.cons.injEq] at h
      simp only [unitsFrom, bayUnits, Bay.unitCount, Bay.length, h.1, ih h.2]

theorem SameTrack.shapes {m m' : TrackMap} (h : SameTrack m m') (r : RunId) :
    (m'.runs[r]).bays.map Bay.shape = (m.runs[r]).bays.map Bay.shape := by
  simpa only [List.map_map, Function.comp_def] using congrArg (List.map Prod.fst) (h.bays r)

theorem SameTrack.units {m m' : TrackMap} (h : SameTrack m m') (r : RunId) :
    (m'.runs[r]).units = (m.runs[r]).units := by
  simp only [Run.units, h.defined, unitsFrom_congr (h.shapes r)]

theorem SameTrack.last {m m' : TrackMap} (h : SameTrack m m') (r : RunId) :
    (m'.runs[r]).last = (m.runs[r]).last := by
  have e : ∀ bs bs' : List Bay, bs'.map Bay.shape = bs.map Bay.shape → bs'.map Bay.length = bs.map Bay.length := by
    intro bs bs' hs
    have hl : Bay.length = (fun s => match s with | .plain l => l | .celled l n => l * n) ∘ Bay.shape := rfl
    rw [hl, ← List.map_map, hs, List.map_map]
  simp only [Run.last, Run.length, h.defined, e _ _ (h.shapes r)]

/-- The entry of a warrant is read off the units of its run alone. -/
theorem SameTrack.entryOf {m m' : TrackMap} (h : SameTrack m m') (r : RunId) (x : Handle) (w : Warrant) :
    entryOf m'.runs[r] x w = entryOf m.runs[r] x w := by
  simp only [Machine.entryOf, Run.numAt, Run.unitAt, h.units]

/-- The zones of units are the chains of the bays there are. -/
theorem zonesOf_eq (m : TrackMap) (r : Run) (us : List TrackUnit) :
    zonesOf m r us = us.flatMap (fun u => ((r.bay u.bay).map m.chain).getD []) := by
  refine congrArg (fun f => us.flatMap f) (funext fun u => ?_)
  cases r.bay u.bay <;> rfl

/-- The chains of the bays that units lie in are read off the bays' zones alone. -/
theorem SameTrack.zonesOf {m m' : TrackMap} (h : SameTrack m m') (r : RunId) (us : List TrackUnit) :
    zonesOf m' m'.runs[r] us = zonesOf m m.runs[r] us := by
  have key : ∀ b : Nat, ((m'.runs[r]).bay b).map (m'.chain) = ((m.runs[r]).bay b).map m.chain := by
    intro b
    have hz := congrArg (fun l => (l[b]?).map Prod.snd) (h.bays r)
    simp only [List.getElem?_map, Option.map_map, Function.comp_def] at hz
    have hc : m'.chain = chainFrom m.zones 4 ∘ Bay.zone := by funext x; simp only [TrackMap.chain, h.zones, Function.comp]
    rw [hc, show m.chain = chainFrom m.zones 4 ∘ Bay.zone from rfl, ← Option.map_map, ← Option.map_map]
    exact congrArg _ hz
  simp only [zonesOf_eq, key]

/-- What a carriage reaches is the same over maps with the same track. -/
theorem SameTrack.reachedZones {W W' : World} (h : SameTrack W.map W'.map) (F : Fleet) (c : CarId) :
    reachedZones W' F c = reachedZones W F c := by
  have hc : claim W' F c = claim W F c := by
    simp only [claim, reserved, occupied, presentExtent, runOf, Run.touched, h.units, h.last]
    rfl
  simp only [Machine.reachedZones, hc]
  exact h.zonesOf _ _

end Sys2Proof.Machine
end

section
namespace Sys2Proof.Machine

/-! ## Occupancy lists in order (R67) -/

theorem Entry.before_iff (a b : Entry) : a.before b = true ↔ a.firstUnit < b.firstUnit ∨ (a.firstUnit = b.firstUnit ∧
    (a.carriage.val < b.carriage.val ∨ (a.carriage.val = b.carriage.val ∧ a.handle.slot.val < b.handle.slot.val))) := by
  simp only [Entry.before, Bool.or_eq_true, Bool.and_eq_true, decide_eq_true_eq, beq_iff_eq, Fin.lt_def, Fin.ext_iff]

theorem Entry.before_trans {a b c : Entry} (h : a.before b = true) (h' : b.before c = true) : a.before c = true := by
  rw [Entry.before_iff] at *
  omega

/-- Entries of two slots are in order one way or the other. -/
theorem Entry.before_of_not_before {a b : Entry} (h : ¬a.before b = true) (hs : b.handle.slot ≠ a.handle.slot) :
    b.before a = true := by
  have := Fin.val_ne_of_ne hs
  rw [Entry.before_iff] at *
  omega

/-- An entry of a new slot placed in an ordered list leaves it ordered. -/
theorem insertEntry_ordered {e : Entry} {es : List Entry} (h : es.Pairwise (fun a b => a.before b = true))
    (hs : ∀ x ∈ es, x.handle.slot ≠ e.handle.slot) : (insertEntry e es).Pairwise (fun a b => a.before b = true) := by
  induction es with
  | nil => simp [insertEntry]
  | cons x xs ih =>
    obtain ⟨hx, hxs⟩ := List.pairwise_cons.mp h
    unfold insertEntry
    split
    · rename_i he
      refine List.pairwise_cons.mpr ⟨fun y hy => ?_, h⟩
      rcases List.mem_cons.mp hy with rfl | hy
      · exact he
      · exact Entry.before_trans he (hx y hy)
    · rename_i he
      refine List.pairwise_cons.mpr ⟨fun y hy => ?_, ih hxs (fun y hy => hs y (List.mem_cons_of_mem _ hy))⟩
      rcases (mem_insertEntry e y xs).mp hy with rfl | hy
      · exact Entry.before_of_not_before he (hs x List.mem_cons_self)
      · exact hx y hy

/-- An entry placed in order is one more among the others. -/
theorem insertEntry_perm (e : Entry) (es : List Entry) : (insertEntry e es).Perm (e :: es) := by
  induction es with
  | nil => exact .refl _
  | cons x xs ih =>
    unfold insertEntry
    split
    · exact .refl _
    · exact (ih.cons x).trans (.swap e x xs)

/-- An entry of a new slot placed in a list with one entry a slot leaves it so. -/
theorem insertEntry_oneSlot {e : Entry} {es : List Entry} (h : (es.map (fun x => x.handle.slot)).Nodup)
    (hs : ∀ x ∈ es, x.handle.slot ≠ e.handle.slot) : ((insertEntry e es).map (fun x => x.handle.slot)).Nodup := by
  refine (((insertEntry_perm e es).map _).nodup_iff).mpr (List.nodup_cons.mpr ⟨fun hm => ?_, h⟩)
  obtain ⟨x, hx, hxe⟩ := List.mem_map.mp hm
  exact hs x hx hxe

/-! ## The laws of the lists and the holders, with what may be in between -/

/-- The lists of R67 with the spans of their entries, R77's UNLOCKED map and, when `zones` is claimed, the holders of R10
and R39. Within a command an entry of a slot in `open'` need not show its span yet, nor be there, and a carriage in
`away` need not reach the zones it holds yet. -/
structure Listed (W : World) (zones : Prop) (away : CarId → Prop) (open' : SlotId → Prop) (F : Fleet) : Prop where
  ordered : ∀ r : RunId, (F.occupancy[r]).Pairwise (fun a b => a.before b = true)
  oneSlot : ∀ r : RunId, ((F.occupancy[r]).map (fun e => e.handle.slot)).Nodup
  belongs : ∀ (r : RunId) (e : Entry), e ∈ F.occupancy[r] →
    ∃ w, F.live e.handle = some w ∧ w.carriage = e.carriage ∧ (F.cars[w.carriage]).cfg.run = r ∧
      (¬open' e.handle.slot → e = entryOf W.map.runs[r] e.handle w)
  entered : ∀ (i : SlotId) (w : Warrant), (F.slots[i]).warrant = some w → ¬open' i →
    ∃ e ∈ F.occupancy[(F.cars[w.carriage]).cfg.run], e.handle = F.handleOf i
  unlocked : W.map.locked = false → ∀ i : SlotId, (F.slots[i]).warrant = none
  held : zones → ∀ (z : ZoneId) (c : CarId), F.holders[z] = some c →
    W.map.locked = true ∧ (away c ∨ z ∈ reachedZones W F c)

/-- No slot, and no carriage. -/
abbrev nobody {α : Type} : α → Prop := fun _ => False

/-- The lists and holders with the book of R66: `zones` False for R67 alone, True for R10 and R39 too. -/
structure Kept (zones : Prop) (away : CarId → Prop) (W : World) (F : Fleet) : Prop where
  lists : Listed W zones away nobody F
  book : F.Book

theorem listLaw_iff (s : State) : s.listLaw ↔ Kept False nobody s.records.world s.records.fleet := by
  constructor
  · rintro ⟨hl, hs, hb, hu⟩
    refine ⟨⟨hl.ordered, hl.oneSlot, fun r e he => ?_, fun i w hw _ => hl.entered i w hw, hu, False.elim⟩, hb⟩
    obtain ⟨w, hw, hc, hr⟩ := hl.belongs r e he
    exact ⟨w, hw, hc, hr, fun _ => hs r e w he hw⟩
  · rintro ⟨hl, hb⟩
    refine ⟨⟨hl.ordered, hl.oneSlot, fun r e he => ?_, fun i w hw => hl.entered i w hw id⟩, fun r e w he hw => ?_, hb,
      hl.unlocked⟩
    · obtain ⟨w, hw, hc, hr, -⟩ := hl.belongs r e he
      exact ⟨w, hw, hc, hr⟩
    · obtain ⟨w', hw', -, -, hs⟩ := hl.belongs r e he
      rw [hw, Option.some.injEq] at hw'
      subst hw'
      exact hs id

theorem zoneLaw_iff (s : State) : s.zoneLaw ↔ Kept True nobody s.records.world s.records.fleet := by
  unfold State.zoneLaw
  rw [listLaw_iff]
  constructor
  · rintro ⟨hz, hl, hb⟩
    exact ⟨{ hl with held := fun _ z c h => ⟨(hz z c h).1, .inr (hz z c h).2⟩ }, hb⟩
  · rintro ⟨hl, hb⟩
    exact ⟨fun z c h => (hl.held trivial z c h).imp_right (·.resolve_left id), { hl with held := False.elim }, hb⟩

/-! ## Changes that the lists, or the book, do not see -/

/-- What the lists read of a warrant: its carriage and its span. -/
def Warrant.span (w : Warrant) : CarId × Int × Int := (w.carriage, w.rear, w.limit)

/-- What the book reads of a warrant: its carriage and whether it is SUSPENDED. -/
def Warrant.role (w : Warrant) : CarId × Bool := (w.carriage, decide (w.state = .suspended))

theorem Warrant.span_eq_iff (w w' : Warrant) :
    w'.span = w.span ↔ w'.carriage = w.carriage ∧ w'.rear = w.rear ∧ w'.limit = w.limit := by
  simp [Warrant.span]

theorem Warrant.role_eq_iff (w w' : Warrant) :
    w'.role = w.role ↔ w'.carriage = w.carriage ∧ (w'.state = .suspended ↔ w.state = .suspended) := by
  simp [Warrant.role]

/-- The slots of both fleets have the same generations, and warrants of the same `look`. -/
structure SlotsAkin {α : Type} (look : Warrant → α) (F G : Fleet) : Prop where
  generation : ∀ i : SlotId, (G.slots[i]).generation = (F.slots[i]).generation
  warrant : ∀ i : SlotId, (G.slots[i]).warrant.map look = (F.slots[i]).warrant.map look

section SlotsAkin

variable {α : Type} {look : Warrant → α} {F G H : Fleet}

theorem SlotsAkin.of_eq (h : G.slots = F.slots) : SlotsAkin look F G :=
  ⟨fun _ => by rw [h], fun _ => by rw [h]⟩

theorem SlotsAkin.trans (h : SlotsAkin look F G) (h' : SlotsAkin look G H) : SlotsAkin look F H :=
  ⟨fun i => (h'.generation i).trans (h.generation i), fun i => (h'.warrant i).trans (h.warrant i)⟩

theorem SlotsAkin.symm (h : SlotsAkin look F G) : SlotsAkin look G F :=
  ⟨fun i => (h.generation i).symm, fun i => (h.warrant i).symm⟩

theorem SlotsAkin.modWarrant (F : Fleet) (i : SlotId) (f : Warrant → Warrant) (hf : ∀ w, look (f w) = look w) :
    SlotsAkin look F (F.modWarrant i f) where
  generation j := F.putWarrant_generation i j _
  warrant j := by
    rw [Fleet.modWarrant_get]
    split
    · rename_i h; subst h
      cases (F.slots[j]).warrant with
      | none => rfl
      | some w => simp [hf]
    · rfl

theorem SlotsAkin.putWarrant {i : SlotId} {w w' : Warrant} (hw : (F.slots[i]).warrant = some w)
    (hl : look w' = look w) : SlotsAkin look F (F.putWarrant i (some w')) where
  generation j := F.putWarrant_generation i j _
  warrant j := by
    rw [Fleet.putWarrant_get]
    split
    · rename_i h; subst h; rw [hw, Option.map_some, Option.map_some, hl]
    · rfl

theorem SlotsAkin.handleOf (h : SlotsAkin look F G) (i : SlotId) : G.handleOf i = F.handleOf i := by
  simp only [Fleet.handleOf, h.generation]

theorem SlotsAkin.slot (h : SlotsAkin look F G) {i : SlotId} {w : Warrant} (hw : (F.slots[i]).warrant = some w) :
    ∃ w', (G.slots[i]).warrant = some w' ∧ look w' = look w := by
  have := h.warrant i
  rw [hw] at this
  cases hw' : (G.slots[i]).warrant with
  | none => rw [hw'] at this; cases this
  | some w' =>
    rw [hw'] at this
    exact ⟨w', rfl, Option.some.inj this⟩

/-- A live warrant of one fleet is live in the other, with the same look. -/
theorem SlotsAkin.live (h : SlotsAkin look F G) {x : Handle} {w : Warrant} (hw : F.live x = some w) :
    ∃ w', G.live x = some w' ∧ look w' = look w := by
  rw [Fleet.live_eq_some_iff] at hw
  obtain ⟨hx, hw⟩ := hw
  obtain ⟨w', hw', hl⟩ := h.slot hw
  exact ⟨w', (G.live_eq_some_iff x w').mpr ⟨by rw [h.handleOf]; exact hx, hw'⟩, hl⟩

end SlotsAkin

/-- `G` differs from `F` in nothing that the book reads. -/
structure BookAkin (F G : Fleet) : Prop where
  current : ∀ c : CarId, (G.cars[c]).current = (F.cars[c]).current
  stack : ∀ c : CarId, (G.cars[c]).stack = (F.cars[c]).stack
  slots : SlotsAkin Warrant.role F G

/-- `G` differs from `F` in nothing that the lists and the holders read. -/
structure ListAkin (F G : Fleet) : Prop where
  cfg : ∀ c : CarId, (G.cars[c]).cfg = (F.cars[c]).cfg
  pose : ∀ c : CarId, (G.cars[c]).pose = (F.cars[c]).pose
  slots : SlotsAkin Warrant.span F G
  occupancy : G.occupancy = F.occupancy
  holders : G.holders = F.holders

/-- The book is kept by what it does not see. -/
theorem BookAkin.book {F G : Fleet} (h : BookAkin F G) (hb : F.Book) : G.Book where
  current c x hx := by
    rw [h.current] at hx
    obtain ⟨w, hw, hc, hs⟩ := hb.current c x hx
    obtain ⟨w', hw', he⟩ := h.slots.live hw
    obtain ⟨ec, es⟩ := (w.role_eq_iff w').mp he
    exact ⟨w', hw', ec.trans hc, fun e => hs (es.mp e)⟩
  stacked c x hx := by
    rw [h.stack] at hx
    obtain ⟨w, hw, hc, hs⟩ := hb.stacked c x hx
    obtain ⟨w', hw', he⟩ := h.slots.live hw
    obtain ⟨ec, es⟩ := (w.role_eq_iff w').mp he
    exact ⟨w', hw', ec.trans hc, es.mpr hs⟩
  owned i w hw := by
    obtain ⟨w', hw', he⟩ := h.slots.symm.slot hw
    obtain ⟨ec, es⟩ := (w.role_eq_iff w').mp he
    have := hb.owned i w' hw'
    simp only [h.stack, h.current, h.slots.handleOf, ← ec, ← es]
    exact this
  nodup c := by rw [h.stack]; exact hb.nodup c

/-- What a carriage reaches is the same when its run, its pose and its own entries are. -/
theorem reachedZones_of_entries {W : World} {F G : Fleet} {c : CarId} (hc : (G.cars[c]).cfg.run = (F.cars[c]).cfg.run)
    (hp : (G.cars[c]).pose = (F.cars[c]).pose) (ho : ∀ e : Entry, e.carriage = c →
      (e ∈ G.occupancy[(F.cars[c]).cfg.run] ↔ e ∈ F.occupancy[(F.cars[c]).cfg.run])) :
    reachedZones W G c = reachedZones W F c := by
  have hr : G.reserves c = F.reserves c := by
    funext u
    rw [Bool.eq_iff_iff]
    simp only [Fleet.reserves, hc, List.any_eq_true, Bool.and_eq_true, beq_iff_eq]
    exact exists_congr fun e => ⟨fun ⟨h, h', h''⟩ => ⟨(ho e h').mp h, h', h''⟩, fun ⟨h, h', h''⟩ => ⟨(ho e h').mpr h, h', h''⟩⟩
  simp only [reachedZones, claim, reserved, occupied, presentExtent, runOf, hc, hp, hr]
  rfl

/-- The lists and holders are kept by what they do not see. -/
theorem ListAkin.listed {F G : Fleet} (h : ListAkin F G) {W : World} {zones : Prop} {away : CarId → Prop}
    {open' : SlotId → Prop} (hl : Listed W zones away open' F) : Listed W zones away open' G where
  ordered r := by rw [h.occupancy]; exact hl.ordered r
  oneSlot r := by rw [h.occupancy]; exact hl.oneSlot r
  belongs r e he := by
    rw [h.occupancy] at he
    obtain ⟨w, hw, hc, hr, hs⟩ := hl.belongs r e he
    obtain ⟨w', hw', hb⟩ := h.slots.live hw
    obtain ⟨ec, er, el⟩ := (w.span_eq_iff w').mp hb
    refine ⟨w', hw', ec.trans hc, by rw [h.cfg, ec]; exact hr, fun ho => (hs ho).trans ?_⟩
    simp only [entryOf, ec, er, el]
  entered i w hw ho := by
    obtain ⟨w', hw', hb⟩ := h.slots.symm.slot hw
    obtain ⟨ec, -, -⟩ := (w.span_eq_iff w').mp hb
    obtain ⟨e, he, hh⟩ := hl.entered i w' hw' ho
    exact ⟨e, by simpa only [h.occupancy, h.cfg, ← ec] using he, by rw [h.slots.handleOf]; exact hh⟩
  unlocked hu i := by
    have := h.slots.warrant i
    rw [hl.unlocked hu i] at this
    simpa using this
  held hz z c hc := by
    rw [h.holders] at hc
    rw [reachedZones_congr (h.cfg c) (h.pose c) h.occupancy]
    exact hl.held hz z c hc

/-- `G` differs from `F` in nothing that the lists, the holders or the book read. -/
structure Akin (F G : Fleet) : Prop where
  lists : ListAkin F G
  book : BookAkin F G

theorem Akin.kept {F G : Fleet} (h : Akin F G) {W : World} {zones : Prop} {away : CarId → Prop}
    (hk : Kept zones away W F) : Kept zones away W G :=
  ⟨h.lists.listed hk.lists, h.book.book hk.book⟩

theorem Akin.refl (F : Fleet) : Akin F F :=
  ⟨⟨fun _ => rfl, fun _ => rfl, .of_eq rfl, rfl, rfl⟩, ⟨fun _ => rfl, fun _ => rfl, .of_eq rfl⟩⟩

theorem Akin.trans {F G H : Fleet} (h : Akin F G) (h' : Akin G H) : Akin F H :=
  ⟨⟨fun c => (h'.lists.cfg c).trans (h.lists.cfg c), fun c => (h'.lists.pose c).trans (h.lists.pose c),
      h.lists.slots.trans h'.lists.slots, h'.lists.occupancy.trans h.lists.occupancy,
      h'.lists.holders.trans h.lists.holders⟩,
    ⟨fun c => (h'.book.current c).trans (h.book.current c), fun c => (h'.book.stack c).trans (h.book.stack c),
      h.book.slots.trans h'.book.slots⟩⟩

theorem Akin.raise (F : Fleet) (d : Detail) : Akin F (F.raise d) :=
  ⟨⟨fun _ => rfl, fun _ => rfl, .of_eq rfl, rfl, rfl⟩, ⟨fun _ => rfl, fun _ => rfl, .of_eq rfl⟩⟩

/-- A change of carriages' records that keeps each one's configuration, pose and handles. -/
theorem Akin.of_cars {F G : Fleet} (hs : G.slots = F.slots) (ho : G.occupancy = F.occupancy) (hh : G.holders = F.holders)
    (hc : ∀ c : CarId, (G.cars[c]).cfg = (F.cars[c]).cfg ∧ (G.cars[c]).pose = (F.cars[c]).pose ∧
      (G.cars[c]).current = (F.cars[c]).current ∧ (G.cars[c]).stack = (F.cars[c]).stack) : Akin F G :=
  ⟨⟨fun c => (hc c).1, fun c => (hc c).2.1, .of_eq hs, ho, hh⟩,
    ⟨fun c => (hc c).2.2.1, fun c => (hc c).2.2.2, .of_eq hs⟩⟩

/-- A property that a change of one carriage's record keeps stands for every carriage after it. -/
theorem Fleet.modCar_rel {R : Carriage → Carriage → Prop} (hr : ∀ k, R k k) (F : Fleet) (c : CarId)
    (f : Carriage → Carriage) (hf : R F.cars[c] (f F.cars[c])) (d : CarId) : R F.cars[d] (F.modCar c f).cars[d] := by
  by_cases h : d = c
  · subst h; rw [Fleet.modCar_get_self]; exact hf
  · rw [F.modCar_get_other f h]; exact hr _

theorem Akin.modCar (F : Fleet) (c : CarId) (f : Carriage → Carriage)
    (hf : (f F.cars[c]).cfg = (F.cars[c]).cfg ∧ (f F.cars[c]).pose = (F.cars[c]).pose ∧
      (f F.cars[c]).current = (F.cars[c]).current ∧ (f F.cars[c]).stack = (F.cars[c]).stack) :
    Akin F (F.modCar c f) :=
  .of_cars rfl rfl rfl (F.modCar_rel (R := fun k k' => k'.cfg = k.cfg ∧ k'.pose = k.pose ∧ k'.current = k.current ∧
    k'.stack = k.stack) (fun _ => ⟨rfl, rfl, rfl, rfl⟩) c f hf)

theorem Akin.refront (F : Fleet) (c : CarId) : Akin F (refront F c) := .modCar F c _ ⟨rfl, rfl, rfl, rfl⟩

theorem Akin.addHold (F : Fleet) (c : CarId) (x : Cause) : Akin F (F.addHold c x) :=
  .modCar F c _ ⟨rfl, rfl, rfl, rfl⟩

theorem Akin.removeHold (F : Fleet) (c : CarId) (x : Cause) : Akin F (F.removeHold c x) :=
  .modCar F c _ ⟨rfl, rfl, rfl, rfl⟩

theorem Akin.addHoldAll (F : Fleet) (x : Cause) : Akin F (F.addHoldAll x) := by
  refine .of_cars (F.addHoldAll_slots x) (F.addHoldAll_occupancy x) (F.addHoldAll_holders x) fun c => ?_
  rw [Fleet.addHoldAll_get]
  split <;> exact ⟨rfl, rfl, rfl, rfl⟩

/-- A change of a warrant that keeps its carriage, its span and whether it is SUSPENDED. -/
theorem Akin.modWarrant (F : Fleet) (i : SlotId) (f : Warrant → Warrant)
    (hs : ∀ w, (f w).span = w.span) (hr : ∀ w, (f w).role = w.role) : Akin F (F.modWarrant i f) :=
  ⟨⟨fun _ => rfl, fun _ => rfl, .modWarrant F i f hs, rfl, rfl⟩, ⟨fun _ => rfl, fun _ => rfl, .modWarrant F i f hr⟩⟩

theorem Akin.receiling (W : World) (F : Fleet) (i : SlotId) : Akin F (receiling W F i) := by
  unfold Machine.receiling
  split
  · exact .modWarrant F i _ (fun _ => rfl) (fun _ => rfl)
  · exact .refl F

end Sys2Proof.Machine
end

section
namespace Sys2Proof.Machine

/-! ## The lists after the operations on one warrant -/

variable {W : World} {F G : Fleet} {zones : Prop} {away : CarId → Prop}

/-- Holders as after a recomputation of carriage `c`'s holdings, with no other carriage's reach changed: `c` reaches what
it holds. -/
theorem Rezoned.held {c : CarId} (h : Rezoned W F G c)
    (hr : ∀ d : CarId, d ≠ c → reachedZones W G d = reachedZones W F d)
    (hz : ∀ (z : ZoneId) (d : CarId), F.holders[z] = some d →
      W.map.locked = true ∧ (away d ∨ d = c ∨ z ∈ reachedZones W F d))
    (z : ZoneId) (d : CarId) (hd : G.holders[z] = some d) : W.map.locked = true ∧ (away d ∨ z ∈ reachedZones W G d) := by
  rw [h z] at hd
  split at hd
  · rename_i hl
    refine ⟨hl, ?_⟩
    split at hd
    · rename_i d' hd'
      split at hd
      · exact absurd hd (by simp)
      · rename_i hn
        cases hd
        by_cases hc : d = c
        · subst hc
          exact .inr (Classical.not_not.mp fun hm => hn ⟨rfl, hm⟩)
        · rw [hr d hc]
          exact (hz z d hd').2.imp_right (·.resolve_left hc)
    · split at hd
      · rename_i hm
        cases hd
        exact .inr hm
      · exact absurd hd (by simp)
  · rename_i hl
    exact absurd (hz z d hd).1 hl

theorem rezone_rezoned (W : World) (F : Fleet) (c : CarId) : Rezoned W F (rezone W F c) c :=
  .of_rezone rfl rfl (reachedZones_congr (by simp) (by simp) (by simp))

/-- A carriage whose holdings are recomputed reaches the zones it holds. -/
theorem Listed.rezone {c : CarId} {open' : SlotId → Prop} (h : Listed W zones (fun d => away d ∨ d = c) open' F) :
    Listed W zones away open' (rezone W F c) where
  ordered r := by rw [rezone_occupancy]; exact h.ordered r
  oneSlot r := by rw [rezone_occupancy]; exact h.oneSlot r
  belongs r e he := by
    rw [rezone_occupancy] at he
    simpa only [Fleet.live, rezone_slots, rezone_cars] using h.belongs r e he
  entered i w hw ho := by
    rw [rezone_slots] at hw
    simpa only [rezone_occupancy, rezone_cars, Fleet.handleOf, rezone_slots] using h.entered i w hw ho
  unlocked hu i := by rw [rezone_slots]; exact h.unlocked hu i
  held hz := (rezone_rezoned W F c).held (fun d _ => reachedZones_congr (by simp) (by simp) (by simp))
    fun z d hd => (h.held hz z d hd).imp_right (or_assoc.mp ·)

/-- The warrant of a live handle's slot. -/
theorem Fleet.slot_of_live {h : Handle} {w : Warrant} (hw : F.live h = some w) : (F.slots[h.slot]).warrant = some w :=
  ((F.live_eq_some_iff h w).mp hw).2

theorem Fleet.handleOf_slot_of_live {h : Handle} {w : Warrant} (hw : F.live h = some w) : F.handleOf h.slot = h :=
  ((F.live_eq_some_iff h w).mp hw).1.symm

/-- The entries of the slot of a live warrant are its carriage's, on its carriage's run. -/
theorem Listed.of_slot {open' : SlotId → Prop} (h : Listed W zones away open' F) {i : SlotId} {w : Warrant}
    (hw : (F.slots[i]).warrant = some w) {r : RunId} {e : Entry} (he : e ∈ F.occupancy[r]) (hs : e.handle.slot = i) :
    e.carriage = w.carriage ∧ r = (F.cars[w.carriage]).cfg.run := by
  subst hs
  obtain ⟨w', hw', hc, hr, -⟩ := h.belongs r e he
  rw [Fleet.slot_of_live hw', Option.some.injEq] at hw
  subst hw
  exact ⟨hc.symm, hr.symm⟩

/-- A live warrant's entry written from its span and its carriage's holdings recomputed: the lists are in order again
(R67, R68). -/
theorem Listed.resettle {i : SlotId} {w : Warrant} (h : Listed W zones away (fun j => j = i) F)
    (hw : (F.slots[i]).warrant = some w) : Listed W zones away nobody (resettle W F i) := by
  rw [resettle_of_live hw]
  refine Listed.rezone ?_
  have hlive : F.live (F.handleOf i) = some w := by rw [Fleet.live_handleOf, hw]
  have hmem : ∀ (r : RunId) (e : Entry), e ∈ (F.putEntry W i w).occupancy[r] →
      (e = entryOf (runOf W F w.carriage) (F.handleOf i) w ∧ r = (F.cars[w.carriage]).cfg.run) ∨
        (e ∈ F.occupancy[r] ∧ e.handle.slot ≠ i) := by
    intro r e he
    rw [Fleet.putEntry_get] at he
    split at he
    · rename_i hr
      rcases (mem_insertEntry _ _ _).mp he with he | he
      · exact .inl ⟨he, hr⟩
      · obtain ⟨he, hs⟩ := List.mem_filter.mp he
        subst hr
        exact .inr ⟨he, by simpa using hs⟩
    · rename_i hr
      refine .inr ⟨he, fun hs => hr (h.of_slot hw he hs).2⟩
  have hother : ∀ x ∈ (F.occupancy[(F.cars[w.carriage]).cfg.run]).filter (fun e => e.handle.slot != i),
      x.handle.slot ≠ i := fun x hx => by simpa using (List.mem_filter.mp hx).2
  have hkeep : ∀ (r : RunId) (e : Entry), e ∈ F.occupancy[r] → e.handle.slot ≠ i →
      e ∈ (F.putEntry W i w).occupancy[r] := by
    intro r e he hs
    rw [Fleet.putEntry_get]
    split
    · rename_i hr
      subst hr
      exact (mem_insertEntry _ _ _).mpr (.inr (List.mem_filter.mpr ⟨he, by simpa using hs⟩))
    · exact he
  constructor
  case ordered =>
    intro r
    rw [Fleet.putEntry_get]
    split
    · exact insertEntry_ordered ((h.ordered _).filter _) fun x hx => hother x hx
    · exact h.ordered r
  case oneSlot =>
    intro r
    rw [Fleet.putEntry_get]
    split
    · refine insertEntry_oneSlot ?_ fun x hx => hother x hx
      exact (h.oneSlot _).sublist (List.filter_sublist.map _)
    · exact h.oneSlot r
  case belongs =>
    intro r e he
    rcases hmem r e he with ⟨rfl, rfl⟩ | ⟨he, hs⟩
    · exact ⟨w, hlive, rfl, rfl, fun _ => rfl⟩
    · obtain ⟨w', hw', hc, hr, hsp⟩ := h.belongs r e he
      exact ⟨w', hw', hc, hr, fun _ => hsp hs⟩
  case entered =>
    intro j w' hj _
    by_cases hji : j = i
    · subst hji
      rw [Fleet.putEntry_slots, hw, Option.some.injEq] at hj
      subst hj
      have hnew : entryOf (runOf W F w.carriage) (F.handleOf j) w ∈
          (F.putEntry W j w).occupancy[(F.cars[w.carriage]).cfg.run] := by
        rw [Fleet.putEntry_get, if_pos rfl]
        exact (mem_insertEntry _ _ _).mpr (.inl rfl)
      exact ⟨_, hnew, rfl⟩
    · obtain ⟨e, he, hh⟩ := h.entered j w' hj hji
      exact ⟨e, hkeep _ e he (by rw [hh]; exact hji), hh⟩
  case unlocked => exact h.unlocked
  case held =>
    intro hz z d hd
    obtain ⟨hl, hd⟩ := h.held hz z d hd
    refine ⟨hl, ?_⟩
    by_cases hc : d = w.carriage
    · exact .inl (.inr hc)
    · refine hd.elim (fun hd => .inl (.inl hd)) fun hd => .inr ?_
      have hr := reachedZones_of_entries (W := W) (F := F) (G := F.putEntry W i w) (c := d) rfl rfl
        fun e hec => ⟨fun he => ?_, fun he => hkeep _ e he fun hs => ?_⟩
      · rw [hr]; exact hd
      · rcases hmem _ e he with ⟨rfl, -⟩ | ⟨he, -⟩
        · exact absurd hec.symm hc
        · exact he
      · exact hc (hec.symm.trans (h.of_slot hw he hs).1)

/-- A live warrant changed, its carriage kept: its entry need not show its span now. -/
theorem Listed.putWarrant {i : SlotId} {w w' : Warrant} (h : Listed W zones away nobody F)
    (hw : (F.slots[i]).warrant = some w) (hc : w'.carriage = w.carriage) :
    Listed W zones away (fun j => j = i) (F.putWarrant i (some w')) := by
  have hs : SlotsAkin Warrant.carriage F (F.putWarrant i (some w')) := .putWarrant hw hc
  constructor
  case ordered => exact h.ordered
  case oneSlot => exact h.oneSlot
  case belongs =>
    intro r e he
    obtain ⟨v, hv, hvc, hr, hsp⟩ := h.belongs r e he
    obtain ⟨v', hv', hcc⟩ := hs.live hv
    refine ⟨v', hv', hcc.trans hvc, by simpa only [hcc, Fleet.putWarrant_cars] using hr, fun hne => ?_⟩
    have := Fleet.slot_of_live hv'
    rw [Fleet.putWarrant_get, if_neg hne, Fleet.slot_of_live hv, Option.some.injEq] at this
    subst this
    exact hsp id
  case entered =>
    intro j v hv hj
    rw [Fleet.putWarrant_get, if_neg hj] at hv
    obtain ⟨e, he, hh⟩ := h.entered j v hv id
    exact ⟨e, he, by rw [Fleet.putWarrant_handleOf]; exact hh⟩
  case unlocked => exact fun hu => absurd (h.unlocked hu i) (by rw [hw]; simp)
  case held => exact h.held

/-- A retired warrant is off the lists and its carriage off the zones it no longer reaches (R88). -/
theorem Retired.listed {i : SlotId} {w : Warrant} {reason : Reason} (hu : Retired W F i w reason G)
    (h : Listed W zones away nobody F) (hw : (F.slots[i]).warrant = some w) : Listed W zones away nobody G := by
  have hcar : ∀ d : CarId, (G.cars[d]).cfg = (F.cars[d]).cfg ∧ (G.cars[d]).pose = (F.cars[d]).pose := by
    intro d
    by_cases hd : d = w.carriage
    · subst hd; rw [hu.car]; exact ⟨rfl, rfl⟩
    · rw [hu.cars d hd]; exact ⟨rfl, rfl⟩
  have hmem : ∀ (r : RunId) (e : Entry), e ∈ G.occupancy[r] ↔ e ∈ F.occupancy[r] ∧ e.handle.slot ≠ i := by
    intro r e
    by_cases hr : r = (F.cars[w.carriage]).cfg.run
    · subst hr; rw [hu.list, List.mem_filter]; simp
    · rw [hu.lists r hr]
      exact ⟨fun he => ⟨he, fun hs => hr (h.of_slot hw he hs).2⟩, And.left⟩
  have hsub : ∀ r : RunId, (G.occupancy[r]).Sublist F.occupancy[r] := by
    intro r
    by_cases hr : r = (F.cars[w.carriage]).cfg.run
    · subst hr; rw [hu.list]; exact List.filter_sublist
    · rw [hu.lists r hr]
  have hgen : ∀ j : SlotId, G.handleOf j = F.handleOf j := by
    intro j
    by_cases hj : j = i
    · subst hj; simp only [Fleet.handleOf, hu.slot]
    · simp only [Fleet.handleOf, hu.slots j hj]
  constructor
  case ordered => exact fun r => (h.ordered r).sublist (hsub r)
  case oneSlot => exact fun r => (h.oneSlot r).sublist ((hsub r).map _)
  case belongs =>
    intro r e he
    obtain ⟨he, hs⟩ := (hmem r e).mp he
    obtain ⟨v, hv, hc, hr, hsp⟩ := h.belongs r e he
    refine ⟨v, ?_, hc, by rw [(hcar _).1]; exact hr, hsp⟩
    rw [Fleet.live_eq_some_iff] at hv ⊢
    rw [hgen, hu.slots _ hs]
    exact hv
  case entered =>
    intro j v hv _
    have hj : j ≠ i := by rintro rfl; rw [hu.slot] at hv; cases hv
    rw [hu.slots j hj] at hv
    obtain ⟨e, he, hh⟩ := h.entered j v hv id
    refine ⟨e, ?_, by rw [hgen]; exact hh⟩
    simp only [(hcar v.carriage).1]
    exact (hmem _ e).mpr ⟨he, by rw [hh]; exact hj⟩
  case unlocked => exact fun hl => absurd (h.unlocked hl i) (by rw [hw]; simp)
  case held =>
    intro hz
    refine hu.zones.held (fun d hd => reachedZones_of_entries (by rw [(hcar d).1]) (hcar d).2 fun e hec => ?_)
      fun z d hd => (h.held hz z d hd).imp_right fun h => h.imp_right .inr
    rw [hmem]
    exact ⟨And.left, fun he => ⟨he, fun hs => hd (hec.symm.trans (h.of_slot hw he hs).1)⟩⟩

/-! ## The book after the operations on one warrant -/

/-- A change of slot `i` and of carriage `c`'s handles keeps the book when the slot's warrants, old and new, are `c`'s,
the new one has its place among `c`'s handles, and `c`'s handles of other slots are those it had. -/
theorem Fleet.Book.of_one {i : SlotId} {c : CarId} (h : F.Book) (hslots : F.sameSlotsBut G i)
    (hcars : ∀ d : CarId, d ≠ c → (G.cars[d]).current = (F.cars[d]).current ∧ (G.cars[d]).stack = (F.cars[d]).stack)
    (hold : ∀ w, (F.slots[i]).warrant = some w → w.carriage = c)
    (hnew : ∀ w, (G.slots[i]).warrant = some w → w.carriage = c ∧
      if w.state = .suspended then G.handleOf i ∈ (G.cars[c]).stack else (G.cars[c]).current = some (G.handleOf i))
    (hcur : ∀ x : Handle, x.slot ≠ i → ((G.cars[c]).current = some x ↔ (F.cars[c]).current = some x))
    (hstk : ∀ x : Handle, x.slot ≠ i → (x ∈ (G.cars[c]).stack ↔ x ∈ (F.cars[c]).stack))
    (hcurNew : ∀ x : Handle, x.slot = i → (G.cars[c]).current = some x →
      ∃ w, G.live x = some w ∧ w.state ≠ .suspended)
    (hstkNew : ∀ x : Handle, x.slot = i → x ∈ (G.cars[c]).stack → ∃ w, G.live x = some w ∧ w.state = .suspended)
    (hnodup : (G.cars[c]).stack.Nodup) : G.Book := by
  have hgen : ∀ j : SlotId, j ≠ i → G.handleOf j = F.handleOf j := fun j hj => by
    simp only [Fleet.handleOf, hslots j hj]
  have hlive : ∀ x : Handle, x.slot ≠ i → G.live x = F.live x := fun x hx => by
    simp only [Fleet.live, hslots x.slot hx]
  have hmine : ∀ (x : Handle) (d : CarId) (v : Warrant), F.live x = some v → v.carriage = d → d ≠ c → x.slot ≠ i := by
    rintro x d v hx rfl hd rfl
    exact hd (hold v (Fleet.slot_of_live hx))
  constructor
  case current =>
    intro d x hx
    by_cases hd : d = c
    · subst hd
      by_cases hi : x.slot = i
      · obtain ⟨w, hw, hs⟩ := hcurNew x hi hx
        subst hi
        exact ⟨w, hw, (hnew w (Fleet.slot_of_live hw)).1, hs⟩
      · obtain ⟨v, hv, hvc, hvs⟩ := h.current d x ((hcur x hi).mp hx)
        exact ⟨v, by rw [hlive x hi]; exact hv, hvc, hvs⟩
    · rw [(hcars d hd).1] at hx
      obtain ⟨v, hv, hvc, hvs⟩ := h.current d x hx
      exact ⟨v, by rw [hlive x (hmine x d v hv hvc hd)]; exact hv, hvc, hvs⟩
  case stacked =>
    intro d x hx
    by_cases hd : d = c
    · subst hd
      by_cases hi : x.slot = i
      · obtain ⟨w, hw, hs⟩ := hstkNew x hi hx
        subst hi
        exact ⟨w, hw, (hnew w (Fleet.slot_of_live hw)).1, hs⟩
      · obtain ⟨v, hv, hvc, hvs⟩ := h.stacked d x ((hstk x hi).mp hx)
        exact ⟨v, by rw [hlive x hi]; exact hv, hvc, hvs⟩
    · rw [(hcars d hd).2] at hx
      obtain ⟨v, hv, hvc, hvs⟩ := h.stacked d x hx
      exact ⟨v, by rw [hlive x (hmine x d v hv hvc hd)]; exact hv, hvc, hvs⟩
  case owned =>
    intro j v hv
    by_cases hj : j = i
    · subst hj
      obtain ⟨hc, hp⟩ := hnew v hv
      simp only [hc]
      exact hp
    · rw [hslots j hj] at hv
      have := h.owned j v hv
      rw [hgen j hj]
      by_cases hc : v.carriage = c
      · simp only [hc] at this ⊢
        rw [hcur _ hj, hstk _ hj]
        exact this
      · rw [(hcars _ hc).1, (hcars _ hc).2]
        exact this
  case nodup =>
    intro d
    by_cases hd : d = c
    · subst hd; exact hnodup
    · rw [(hcars d hd).2]; exact h.nodup d

/-- A carriage's current handle that is in slot `i` is the slot's own. -/
theorem Fleet.Book.current_eq (h : F.Book) {c : CarId} {x : Handle} (hx : (F.cars[c]).current = some x) :
    x = F.handleOf x.slot := by
  obtain ⟨w, hw, -⟩ := h.current c x hx
  exact (Fleet.handleOf_slot_of_live hw).symm

theorem Fleet.Book.stacked_eq (h : F.Book) {c : CarId} {x : Handle} (hx : x ∈ (F.cars[c]).stack) :
    x = F.handleOf x.slot := by
  obtain ⟨w, hw, -⟩ := h.stacked c x hx
  exact (Fleet.handleOf_slot_of_live hw).symm

/-- A retired warrant is off the book (R66, R88). -/
theorem Retired.book {i : SlotId} {w : Warrant} {reason : Reason} (hu : Retired W F i w reason G) (h : F.Book)
    (hw : (F.slots[i]).warrant = some w) : G.Book := by
  have hcur : (G.cars[w.carriage]).current = if (F.cars[w.carriage]).current = some (F.handleOf i) then none
      else (F.cars[w.carriage]).current := by rw [hu.car]
  have hstk : (G.cars[w.carriage]).stack = (F.cars[w.carriage]).stack.filter (fun x => x != F.handleOf i) := by
    rw [hu.car]
  have hne : ∀ x : Handle, x.slot ≠ i → x ≠ F.handleOf i := fun x hx e => hx (by rw [e]; rfl)
  refine h.of_one (c := w.carriage) hu.slots (fun d hd => by rw [hu.cars d hd]; exact ⟨rfl, rfl⟩)
    (fun v hv => by rw [hw, Option.some.injEq] at hv; rw [hv]) (fun v hv => by rw [hu.slot] at hv; cases hv)
    (fun x hx => ?_) (fun x hx => ?_) (fun x hx hc => ?_) (fun x hx hm => ?_) ?_
  · rw [hcur]
    split
    · rename_i e; rw [e]; simp [Ne.symm (hne x hx)]
    · rfl
  · rw [hstk, List.mem_filter]
    simp [hne x hx]
  · rw [hcur] at hc
    split at hc
    · cases hc
    · rename_i e
      exact absurd (by rw [hc, h.current_eq hc, hx]) e
  · rw [hstk, List.mem_filter] at hm
    have := h.stacked_eq hm.1
    rw [hx] at this
    simp [this] at hm
  · rw [hstk]; exact (h.nodup _).sublist List.filter_sublist

/-- A SUSPENDED warrant of a carriage without a current one made current, its handle off the stack (R127). -/
theorem Fleet.Book.promote {i : SlotId} {w w' : Warrant} (h : F.Book) (hslots : F.sameSlotsBut G i)
    (hw : (F.slots[i]).warrant = some w) (hs : G.slots[i] = { F.slots[i] with warrant := some w' })
    (hc : w'.carriage = w.carriage) (hst : w'.state ≠ .suspended) (hnone : (F.cars[w.carriage]).current = none)
    (hcars : ∀ d : CarId, d ≠ w.carriage →
      (G.cars[d]).current = (F.cars[d]).current ∧ (G.cars[d]).stack = (F.cars[d]).stack)
    (hcur : (G.cars[w.carriage]).current = some (F.handleOf i))
    (hstk : (G.cars[w.carriage]).stack = (F.cars[w.carriage]).stack.filter (fun x => x != F.handleOf i)) : G.Book := by
  have hgen : G.handleOf i = F.handleOf i := by simp only [Fleet.handleOf, hs]
  have hlive : G.live (F.handleOf i) = some w' := by rw [← hgen, Fleet.live_handleOf, hs]
  refine h.of_one (c := w.carriage) hslots hcars (fun v hv => by rw [hw, Option.some.injEq] at hv; rw [hv])
    (fun v hv => ?_) (fun x hx => ?_) (fun x hx => ?_) (fun x hx hxc => ?_) (fun x hx hm => ?_) ?_
  · rw [hs, Option.some.injEq] at hv
    subst hv
    rw [if_neg hst, hcur, hgen]
    exact ⟨hc, rfl⟩
  · rw [hcur, hnone]
    simp only [Option.some.injEq, reduceCtorEq, iff_false]
    rintro rfl
    exact hx rfl
  · rw [hstk, List.mem_filter]
    simp only [bne_iff_ne, ne_eq, and_iff_left_iff_imp]
    rintro - rfl
    exact hx rfl
  · rw [hcur, Option.some.injEq] at hxc
    exact ⟨w', by rw [← hxc]; exact hlive, hst⟩
  · rw [hstk, List.mem_filter] at hm
    have := h.stacked_eq hm.1
    rw [hx] at this
    simp [this] at hm
  · rw [hstk]; exact (h.nodup _).sublist List.filter_sublist

/-- The current warrant of a carriage set aside onto its stack (R119). -/
theorem Fleet.Book.setAside {i : SlotId} {w w' : Warrant} (h : F.Book) (hslots : F.sameSlotsBut G i)
    (hw : (F.slots[i]).warrant = some w) (hs : G.slots[i] = { F.slots[i] with warrant := some w' })
    (hc : w'.carriage = w.carriage) (hst : w'.state = .suspended)
    (hwas : (F.cars[w.carriage]).current = some (F.handleOf i))
    (hcars : ∀ d : CarId, d ≠ w.carriage →
      (G.cars[d]).current = (F.cars[d]).current ∧ (G.cars[d]).stack = (F.cars[d]).stack)
    (hcur : (G.cars[w.carriage]).current = none)
    (hstk : (G.cars[w.carriage]).stack = (F.cars[w.carriage]).stack ++ [F.handleOf i]) : G.Book := by
  have hgen : G.handleOf i = F.handleOf i := by simp only [Fleet.handleOf, hs]
  have hlive : G.live (F.handleOf i) = some w' := by rw [← hgen, Fleet.live_handleOf, hs]
  obtain ⟨v, hv, -, hvs⟩ := h.current _ _ hwas
  have hnot : F.handleOf i ∉ (F.cars[w.carriage]).stack := fun hm => by
    obtain ⟨u, hu, -, hus⟩ := h.stacked _ _ hm
    rw [hv, Option.some.injEq] at hu
    exact hvs (by rw [hu]; exact hus)
  refine h.of_one (c := w.carriage) hslots hcars (fun v hv => by rw [hw, Option.some.injEq] at hv; rw [hv])
    (fun v hv => ?_) (fun x hx => ?_) (fun x hx => ?_) (fun x hx hxc => ?_) (fun x hx hm => ?_) ?_
  · rw [hs, Option.some.injEq] at hv
    subst hv
    rw [if_pos hst, hstk, hgen]
    exact ⟨hc, by simp⟩
  · rw [hcur, hwas]
    simp only [Option.some.injEq, reduceCtorEq, false_iff]
    rintro rfl
    exact hx rfl
  · rw [hstk, List.mem_append, List.mem_singleton, or_iff_left]
    rintro rfl
    exact hx rfl
  · rw [hcur] at hxc; cases hxc
  · rw [hstk, List.mem_append, List.mem_singleton] at hm
    rcases hm with hm | rfl
    · have := h.stacked_eq hm
      rw [hx] at this
      rw [this] at hm
      exact absurd hm hnot
    · exact ⟨w', hlive, hst⟩
  · rw [hstk]
    exact List.nodup_append.mpr ⟨h.nodup _, List.nodup_singleton _, fun a ha b hb e =>
      hnot (by rw [← List.mem_singleton.mp hb, ← e]; exact ha)⟩

/-- A free slot issued to a carriage without a current warrant (R80). -/
theorem Fleet.Book.issued {i : SlotId} {w : Warrant} (h : F.Book) (hslots : F.sameSlotsBut G i)
    (hfree : (F.slots[i]).warrant = none) (hs : (G.slots[i]).warrant = some w) (hst : w.state ≠ .suspended)
    (hnone : (F.cars[w.carriage]).current = none)
    (hcars : ∀ d : CarId, d ≠ w.carriage →
      (G.cars[d]).current = (F.cars[d]).current ∧ (G.cars[d]).stack = (F.cars[d]).stack)
    (hcur : (G.cars[w.carriage]).current = some (G.handleOf i))
    (hstk : (G.cars[w.carriage]).stack = (F.cars[w.carriage]).stack) : G.Book := by
  refine h.of_one (c := w.carriage) hslots hcars (fun v hv => by rw [hfree] at hv; cases hv)
    (fun v hv => ?_) (fun x hx => ?_) (fun x _ => by rw [hstk]) (fun x hx hxc => ?_) (fun x hx hm => ?_)
    (by rw [hstk]; exact h.nodup _)
  · rw [hs, Option.some.injEq] at hv
    subst hv
    rw [if_neg hst]
    exact ⟨rfl, hcur⟩
  · rw [hcur, hnone]
    simp only [Option.some.injEq, reduceCtorEq, iff_false]
    rintro rfl
    exact hx rfl
  · rw [hcur, Option.some.injEq] at hxc
    exact ⟨w, by rw [← hxc, Fleet.live_handleOf]; exact hs, hst⟩
  · rw [hstk] at hm
    obtain ⟨v, hv, -⟩ := h.stacked _ _ hm
    subst hx
    rw [Fleet.slot_of_live hv] at hfree
    cases hfree

end Sys2Proof.Machine
end

section
namespace Sys2Proof.Machine

/-! ## The law through the Warrant Table's operations -/

variable {W : World} {F G : Fleet} {zones : Prop} {away : CarId → Prop}

theorem BookAkin.of_eq (hc : G.cars = F.cars) (hs : G.slots = F.slots) : BookAkin F G :=
  ⟨fun _ => by rw [hc], fun _ => by rw [hc], .of_eq hs⟩

theorem Kept.rezone {c : CarId} (h : Kept zones (fun d => away d ∨ d = c) W F) : Kept zones away W (rezone W F c) :=
  ⟨h.lists.rezone, (BookAkin.of_eq (by simp) (by simp)).book h.book⟩

/-- A live warrant with another span, its entry written and the holdings recomputed. -/
theorem Kept.resettle_putWarrant {i : SlotId} {w w' : Warrant} (h : Kept zones away W F)
    (hw : (F.slots[i]).warrant = some w) (hr : w'.role = w.role) :
    Kept zones away W (resettle W (F.putWarrant i (some w')) i) := by
  have hl := h.lists.putWarrant hw ((w.role_eq_iff w').mp hr).1
  refine ⟨hl.resettle (w := w') (by rw [Fleet.putWarrant_get, if_pos rfl]), BookAkin.book ?_ h.book⟩
  exact ⟨fun _ => by simp, fun _ => by simp, (SlotsAkin.putWarrant hw hr).trans (.of_eq (by simp))⟩

theorem Fleet.modWarrant_of_live {i : SlotId} {w : Warrant} (hw : (F.slots[i]).warrant = some w)
    (f : Warrant → Warrant) : F.modWarrant i f = F.putWarrant i (some (f w)) := by
  simp only [Fleet.modWarrant, hw, Option.map_some]

theorem Fleet.putWarrant_putWarrant (F : Fleet) (i : SlotId) (x y : Option Warrant) :
    (F.putWarrant i x).putWarrant i y = F.putWarrant i y := by
  simp [Fleet.putWarrant]

/-- A shortened warrant is a live one with another limit, confirm point and ceiling, resettled. -/
theorem shorten_of_live {i : SlotId} {w : Warrant} (hw : (F.slots[i]).warrant = some w) (x : Int) :
    ∃ w', w'.role = w.role ∧ shorten W F i x = resettle W (F.putWarrant i (some w')) i := by
  let w1 : Warrant := { w with limit := x, confirm := keepShort w.dir x w.confirm }
  refine ⟨{ w1 with ceiling := fullCeiling W (F.putWarrant i (some w1)) w1 }, rfl, ?_⟩
  have h1 : ((F.putWarrant i (some w1)).slots[i]).warrant = some w1 := by rw [Fleet.putWarrant_get, if_pos rfl]
  simp only [shorten, Fleet.modWarrant_of_live hw, receiling, h1, w1, Fleet.modWarrant_of_live h1,
    Fleet.putWarrant_putWarrant]

theorem Kept.shorten {i : SlotId} {w : Warrant} (h : Kept zones away W F) (hw : (F.slots[i]).warrant = some w)
    (x : Int) : Kept zones away W (shorten W F i x) := by
  obtain ⟨w', hr, e⟩ := shorten_of_live (W := W) hw x
  rw [e]
  exact h.resettle_putWarrant hw hr

theorem Kept.markWarrant (h : Kept zones away W F) (i : SlotId) (r : Reason) :
    Kept zones away W (markWarrant W F i r) := by
  unfold Machine.markWarrant
  split
  · rename_i w hw
    exact (Akin.modWarrant (Machine.shorten W F i (cutLimit W F w)) i
      (fun w' => { w' with retireOnStop := some (w.retireOnStop.getD r) }) (fun _ => rfl) (fun _ => rfl)).kept
      (h.shorten hw _)
  · exact h

theorem Kept.unlink {i : SlotId} {w : Warrant} (h : Kept zones away W F) (hw : (F.slots[i]).warrant = some w)
    (r : Reason) : Kept zones away W (unlink W F i w r) :=
  ⟨(unlink_retired r).listed h.lists hw, (unlink_retired r).book h.book hw⟩

theorem Kept.retireQuietly (h : Kept zones away W F) (i : SlotId) (r : Reason) :
    Kept zones away W (retireQuietly W F i r) := by
  unfold Machine.retireQuietly
  split
  · rename_i w hw
    simp only []
    split
    · exact (Akin.removeHold _ _ _).kept (h.unlink hw r)
    · exact h.unlink hw r
  · exact h

/-- A resumption keeps the law: a SUSPENDED warrant of a carriage without a current one comes off the stack. -/
theorem Kept.resumeWarrant {i : SlotId} {w : Warrant} (h : Kept zones away W F) (hw : (F.slots[i]).warrant = some w)
    (hnone : (F.cars[w.carriage]).current = none) (res : WalkResult) : Kept zones away W (resumeWarrant W F i w res) := by
  obtain ⟨w', hc, hst, e⟩ : ∃ w' : Warrant, w'.carriage = w.carriage ∧ w'.state ≠ .suspended ∧
      ∃ d, Machine.resumeWarrant W F i w res = (refront (resettle W ((F.putWarrant i (some w')).modCar w.carriage
        (fun k => { k with current := some (F.handleOf i), stack := k.stack.filter (fun x => x != F.handleOf i) })) i)
          w.carriage).raise d := by
    refine ⟨_, ?_, ?_, _, rfl⟩
    · rfl
    · simp
  obtain ⟨d, e⟩ := e
  rw [e]
  refine ((Akin.refront _ _).trans (Akin.raise _ d)).kept ?_
  let F2 := (F.putWarrant i (some w')).modCar w.carriage
    (fun k => { k with current := some (F.handleOf i), stack := k.stack.filter (fun x => x != F.handleOf i) })
  have hs : F2.slots[i] = { F.slots[i] with warrant := some w' } := by
    simp only [F2, Fleet.modCar_slots, Fleet.putWarrant_get, if_true]
  have hcar : ∀ c : CarId, (F2.cars[c]).cfg = (F.cars[c]).cfg ∧ (F2.cars[c]).pose = (F.cars[c]).pose :=
    Fleet.modCar_rel (R := fun k k' => k'.cfg = k.cfg ∧ k'.pose = k.pose) (fun _ => ⟨rfl, rfl⟩) _ _ _ ⟨rfl, rfl⟩
  constructor
  case lists =>
    refine Listed.resettle (w := w') (ListAkin.listed ?_ (h.lists.putWarrant hw hc)) (by rw [hs])
    exact ⟨fun c => (hcar c).1, fun c => (hcar c).2, .of_eq rfl, rfl, rfl⟩
  case book =>
    refine (BookAkin.of_eq (F := F2) (by simp [F2]) (by simp [F2])).book ?_
    refine h.book.promote (w' := w') (fun j hj => ?_) hw hs hc hst hnone (fun c hc => ?_) ?_ ?_
    · simp only [F2, Fleet.modCar_slots, Fleet.putWarrant_get, if_neg hj]
    · simp only [F2, Fleet.modCar_get_other _ _ hc, Fleet.putWarrant_cars, and_self]
    · simp only [F2, Fleet.modCar_get_self]
    · simp only [F2, Fleet.modCar_get_self, Fleet.putWarrant_cars]

/-- What is live after a quiet retirement was live before it. -/
theorem live_of_retireQuietly {i : SlotId} {r : Reason} {x : Handle} {v : Warrant}
    (h : (retireQuietly W F i r).live x = some v) : F.live x = some v := by
  have key : ∀ G : Fleet, G.slots = (F.putWarrant i none).slots → G.live x = some v → F.live x = some v := by
    intro G hG hx
    have hgen : G.handleOf x.slot = F.handleOf x.slot := by
      rw [← F.putWarrant_handleOf i x.slot none]
      simp only [Fleet.handleOf, hG]
    rw [Fleet.live_eq_some_iff, hgen, hG] at hx
    rw [Fleet.live_eq_some_iff]
    refine ⟨hx.1, ?_⟩
    rw [Fleet.putWarrant_get] at hx
    split at hx
    · cases hx.2
    · exact hx.2
  unfold retireQuietly at h
  split at h
  · refine key _ ?_ h
    simp only []
    split <;> simp only [Fleet.removeHold_slots, unlink_slots]
  · exact h

/-- Steps 1 to 6 of a retirement give no carriage a current warrant. -/
theorem unlink_current_none {i : SlotId} {w : Warrant} {r : Reason} {c : CarId} (h : (F.cars[c]).current = none) :
    ((unlink W F i w r).cars[c]).current = none := by
  by_cases hc : c = w.carriage
  · subst hc
    obtain ⟨front, e⟩ := unlink_self W F i w r
    rw [e]
    show (if (F.cars[w.carriage]).current = some (F.handleOf i) then none else (F.cars[w.carriage]).current) = none
    split
    · rfl
    · exact h
  · rw [unlink_other W F i w r hc]; exact h

theorem removeHold_current (F : Fleet) (c d : CarId) (x : Cause) :
    ((F.removeHold c x).cars[d]).current = (F.cars[d]).current :=
  (Akin.removeHold F c x).book.current d

/-- A quiet retirement gives no carriage a current warrant. -/
theorem retireQuietly_current_none {i : SlotId} {r : Reason} {c : CarId} (h : (F.cars[c]).current = none) :
    ((retireQuietly W F i r).cars[c]).current = none := by
  unfold retireQuietly
  split
  · simp only []
    split
    · rw [removeHold_current]; exact unlink_current_none h
    · exact unlink_current_none h
  · exact h

/-- A handle that names no live warrant taken off a stack: the law stands. -/
theorem Kept.dropStale {c : CarId} {x : Handle} (h : Kept zones away W F) (hx : F.live x = none) :
    Kept zones away W (F.modCar c (fun k => { k with stack := k.stack.filter (fun y => y != x) })) := by
  have hno : ∀ d : CarId, x ∉ (F.cars[d]).stack := fun d hm => by
    obtain ⟨w, hw, -⟩ := h.book.stacked d x hm
    rw [hx] at hw; cases hw
  refine (Akin.modCar F c _ ⟨rfl, rfl, rfl, ?_⟩).kept h
  exact List.filter_eq_self.mpr fun y hy => by simpa using fun e : y = x => hno c (e ▸ hy)

/-- The entries of a stack taken one by one (R125 to R128), for a carriage without a current warrant. -/
theorem Kept.attemptFrom {c : CarId} (hs : List Handle) (h : Kept zones away W F) (hnone : (F.cars[c]).current = none)
    (hmine : ∀ x ∈ hs, ∀ w, F.live x = some w → w.carriage = c) : Kept zones away W (attemptFrom W c hs F) := by
  induction hs generalizing F with
  | nil => exact (Akin.refront F c).kept h
  | cons x hs ih =>
    have retired : ∀ r : Reason, Kept zones away W (Machine.retireQuietly W F x.slot r) ∧
        ((Machine.retireQuietly W F x.slot r).cars[c]).current = none ∧
        ∀ y ∈ hs, ∀ w, (Machine.retireQuietly W F x.slot r).live y = some w → w.carriage = c := fun r =>
      ⟨h.retireQuietly _ r, retireQuietly_current_none hnone,
        fun y hy w hw => hmine y (List.mem_cons_of_mem _ hy) w (live_of_retireQuietly hw)⟩
    have failed : ∀ (r : Reason) (b : Option Blocker), Kept zones away W
        (Machine.attemptFrom W c hs (raiseResumeFail (Machine.retireQuietly W F x.slot r) c x r b)) := fun r b =>
      ih ((Akin.raise _ _).kept (retired r).1) (retired r).2.1 (retired r).2.2
    unfold Machine.attemptFrom
    split
    · rename_i hx
      refine ih (h.dropStale hx) ?_ fun y hy => hmine y (List.mem_cons_of_mem _ hy)
      rw [Fleet.modCar_get_self]
      exact hnone
    · rename_i w hw
      split
      · rename_i reason _
        exact ih (retired reason).1 (retired reason).2.1 (retired reason).2.2
      · split
        · exact failed _ _
        · simp only []
          split
          · refine h.resumeWarrant (Fleet.slot_of_live hw) ?_ _
            have hc := hmine x List.mem_cons_self w hw
            subst hc
            exact hnone
          · exact failed _ _

theorem Kept.attempt (h : Kept zones away W F) (c : CarId) : Kept zones away W (attempt W F c) := by
  unfold Machine.attempt
  split
  · rename_i hm
    simp only [mayAttempt, Bool.and_eq_true, Option.isNone_iff_eq_none] at hm
    refine h.attemptFrom _ hm.1.1.1 fun x hx w hw => ?_
    obtain ⟨v, hv, hc, -⟩ := h.book.stacked c x (List.mem_reverse.mp hx)
    rw [hw, Option.some.injEq] at hv
    rw [hv]; exact hc
  · exact h

theorem Kept.releaseHold (h : Kept zones away W F) (c : CarId) (x : Cause) :
    Kept zones away W (releaseHold W F c x) := by
  have hr := (Akin.removeHold F c x).kept h
  unfold Machine.releaseHold
  simp only []
  split
  · exact hr.attempt c
  · exact hr

theorem Kept.retire (h : Kept zones away W F) (i : SlotId) (r : Reason) : Kept zones away W (retire W F i r) := by
  unfold Machine.retire
  split
  · rename_i w hw
    have hu := h.unlink hw r
    simp only []
    split <;> split
    · exact (hu.attempt _).releaseHold _ _
    · exact hu.attempt _
    · exact hu.releaseHold _ _
    · exact hu
  · exact h

/-! ## The law through trips and the stages of a report -/

theorem Akin.countTrip (F : Fleet) (c : CarId) : Akin F (countTrip F c) := by
  unfold Machine.countTrip
  simp only []
  split
  · split
    · exact (Akin.modCar F c _ ⟨rfl, rfl, rfl, rfl⟩).trans (.raise _ _)
    · exact .modCar F c _ ⟨rfl, rfl, rfl, rfl⟩
  · exact .modCar F c _ ⟨rfl, rfl, rfl, rfl⟩

theorem Kept.markTop (h : Kept zones away W F) (c : CarId) (r : Reason) : Kept zones away W (markTop W F c r) := by
  unfold Machine.markTop
  split
  · split
    · exact h.markWarrant _ _
    · exact h
  · exact h

theorem Kept.stopCurrent (h : Kept zones away W F) (c : CarId) (v : Nat) : Kept zones away W (stopCurrent W F c v) := by
  unfold Machine.stopCurrent
  split
  · split
    · exact h.retire _ _
    · exact h.markWarrant _ _
  · exact h

theorem Kept.trip (h : Kept zones away W F) (c : CarId) (kind : TripKind) (v : Nat) (byCut : Bool) :
    Kept zones away W (trip W F c kind v byCut) := by
  unfold Machine.trip
  split
  · have h1 := (Akin.modCar F c (fun k => { k with
      trip := k.trip.map (fun t => { t with further := min 255 (t.further + 1) }) }) ⟨rfl, rfl, rfl, rfl⟩).kept h
    unfold furtherTrip
    simp only []
    split
    · split
      · exact ((h1.markWarrant _ _).markTop _ _).stopCurrent _ _
      · exact (h1.markTop _ _).stopCurrent _ _
    · split
      · exact (h1.markWarrant _ _).markTop _ _
      · exact h1.markTop _ _
  · have h1 := (Akin.modCar F c (fun k => { k with
      state := .tripped, trip := some { kind := kind, tick := W.now, further := 0 }, holds := k.holds.add .trip })
      ⟨rfl, rfl, rfl, rfl⟩).kept h
    exact ((Akin.countTrip _ c).trans (.raise _ _)).kept ((h1.stopCurrent c v).markTop c .tripped)

theorem Kept.stopStage (h : Kept zones away W F) (c : CarId) (v : Nat) : Kept zones away W (stopStage W F c v) := by
  unfold Machine.stopStage
  split
  · split
    · split
      · exact h.retire _ _
      · exact h
    · exact h
  · exact h

theorem Akin.activate (F : Fleet) (i : SlotId) (speed : Int) : Akin F (activate F i speed) := by
  refine .modWarrant F i _ (fun w => ?_) (fun w => ?_)
  · split <;> rfl
  · split
    · rename_i hg; simp [Warrant.role, hg.1]
    · rfl

theorem Kept.advance (h : Kept zones away W F) (c : CarId) (i : SlotId) (speed : Int) :
    Kept zones away W (advance W F c i speed) := by
  have h1 := (Akin.activate F i speed).kept h
  unfold Machine.advance releaseRear
  split
  · exact h
  · split
    · rename_i w hw
      simp only []
      split
      · rw [Fleet.modWarrant_of_live hw]
        exact h1.resettle_putWarrant hw rfl
      · exact h1
    · exact h1

theorem Kept.completeStage (h : Kept zones away W F) (i : SlotId) (v : Nat) :
    Kept zones away W (completeStage W F i v) := by
  unfold Machine.completeStage
  split
  · split
    · exact (((Akin.modCar F _ _ ⟨rfl, rfl, rfl, rfl⟩).trans (.raise _ _)).kept h).retire _ _
    · exact h
  · exact h

theorem Kept.progress (h : Kept zones away W F) (c : CarId) (speed : Int) :
    Kept zones away W (progress W F c speed) := by
  unfold Machine.progress
  split
  · split
    · exact h.stopStage c _
    · exact (h.advance c _ speed).completeStage _ _
  · exact h

theorem Akin.warn (F : Fleet) (c : CarId) : Akin F (warn F c) := by
  unfold Machine.warn
  split
  · split
    · exact (Akin.modWarrant F _ (fun w' => { w' with warned := true }) (fun _ => rfl) (fun _ => rfl)).trans
        (.raise _ _)
    · exact .refl F
  · exact .refl F

theorem Kept.supervise (h : Kept zones away W F) (c : CarId) (speed : Int) :
    Kept zones away W (supervise W F c speed) := by
  unfold Machine.supervise
  split
  · exact (h.trip _ _ _ _).stopStage _ _
  · exact ((Akin.warn F c).kept h).progress _ _

theorem Kept.endRunOut (h : Kept zones away W F) (c : CarId) (v : Nat) : Kept zones away W (endRunOut W F c v) := by
  unfold Machine.endRunOut
  split
  · have ended : ∀ G, Kept zones away W G → Kept zones away W (Machine.attempt W (refront
        (match (G.removeHold c .reversal).currentOf c with
         | some (i, _) => receiling W (G.removeHold c .reversal) i
         | none => G.removeHold c .reversal) c) c) := by
      intro G hG
      have h2 := (Akin.removeHold G c .reversal).kept hG
      refine Kept.attempt ((Akin.refront _ c).kept ?_) c
      split
      · exact (Akin.receiling W _ _).kept h2
      · exact h2
    refine ended _ ?_
    split
    · split
      · exact h.retire _ _
      · exact h
    · exact h
  · exact h

theorem Kept.endMute (h : Kept zones away W F) (c : CarId) : Kept zones away W (endMute W F c) := by
  unfold Machine.endMute
  split
  · exact ((Akin.modCar F c _ ⟨rfl, rfl, rfl, rfl⟩).kept h).releaseHold _ _
  · exact h

/-! ## The law through demands -/

theorem Akin.raiseCuts (F : Fleet) (source : CutSource) (reached : List Reached) :
    Akin F (raiseCuts F source reached) := by
  unfold Machine.raiseCuts
  induction reached generalizing F with
  | nil => exact .refl F
  | cons x xs ih => exact (Akin.raise F _).trans (ih _)

/-- A property that each step of a demand keeps is kept by the demand on handles in turn. -/
theorem cutEach_keeps {P : Fleet → Prop} {step : Fleet → Handle → Fleet × Bool} (hs : ∀ F h, P F → P (step F h).1)
    (c : CarId) (xs : List Handle) {F : Fleet} (h : P F) : P (cutEach step c xs F).1 := by
  induction xs generalizing F with
  | nil => exact h
  | cons x xs ih => exact ih (hs F x h)

/-- A property that a demand on each carriage keeps is kept by the demand on carriages in turn. -/
theorem cutCars_keeps {P : Fleet → Prop} {step : CarId → Fleet → Fleet × List Reached}
    (hs : ∀ c F, P F → P (step c F).1) (cs : List CarId) {F : Fleet} (h : P F) : P (cutCars step cs F).1 := by
  induction cs generalizing F with
  | nil => exact h
  | cons c cs ih => exact ih (hs c F h)

/-- All that a cut from the leading end can do to the fleet (R106 to R109). -/
theorem cutFromLead_cases (W : World) (d : UnitDemand) (F : Fleet) (i : SlotId) (w : Warrant) :
    (cutFromLead W d F i w).1 = F ∨
      (cutFromLead W d F i w).1 = trip W F w.carriage d.kind (F.cars[w.carriage]).lastV true ∨
      (∃ x, (cutFromLead W d F i w).1 = shorten W F i x) ∨ (cutFromLead W d F i w).1 = retire W F i .cutOff ∨
      (cutFromLead W d F i w).1 = markWarrant W F i .cutOff := by
  unfold cutFromLead
  simp only []
  generalize (if (F.inRunOut w.carriage && w.state != .suspended) = true then _ else _) = front
  split
  · exact .inl rfl
  · split
    · exact .inr (.inl rfl)
    · split
      · exact .inr (.inr (.inl ⟨_, rfl⟩))
      · split
        · exact .inr (.inr (.inr (.inl rfl)))
        · exact .inr (.inr (.inr (.inr rfl)))

theorem Kept.cutFromLead {i : SlotId} {w : Warrant} (h : Kept zones away W F) (d : UnitDemand)
    (hw : (F.slots[i]).warrant = some w) : Kept zones away W (cutFromLead W d F i w).1 := by
  rcases cutFromLead_cases W d F i w with e | e | ⟨x, e⟩ | e | e <;> rw [e]
  · exact h
  · exact h.trip _ _ _ _
  · exact h.shorten hw _
  · exact h.retire _ _
  · exact h.markWarrant _ _

theorem Kept.cutFromRear {i : SlotId} {w : Warrant} (h : Kept zones away W F) (d : UnitDemand)
    (hw : (F.slots[i]).warrant = some w) : Kept zones away W (cutFromRear W d F i w).1 := by
  unfold Machine.cutFromRear
  simp only []
  split
  · exact h
  · split
    · exact h.retire _ _
    · exact h.shorten hw _

/-- A cut to unit demand: its carriages in turn, then CUT_BACK for each warrant reached. -/
theorem cutToUnit_eq (W : World) (d : UnitDemand) (F : Fleet) :
    ∃ reached, cutToUnit W d F = raiseCuts
      (cutCars (fun c F => cutEach (cutUnitStep W d) c (warrantsOf F c) F) (List.finRange 16) F).1 d.source reached := by
  unfold cutToUnit
  generalize cutCars _ _ _ = out
  exact ⟨out.2, rfl⟩

theorem Kept.cutToUnit (h : Kept zones away W F) (d : UnitDemand) : Kept zones away W (cutToUnit W d F) := by
  obtain ⟨reached, e⟩ := cutToUnit_eq W d F
  rw [e]
  refine (Akin.raiseCuts _ _ _).kept (cutCars_keeps (P := Kept zones away W) (fun c F hF => ?_) _ h)
  refine cutEach_keeps (P := Kept zones away W) (fun F x hF => ?_) c _ hF
  unfold cutUnitStep
  split
  · exact hF
  · rename_i w hw
    split
    · exact hF.cutFromLead d (Fleet.slot_of_live hw)
    · exact hF.cutFromRear d (Fleet.slot_of_live hw)

theorem Kept.cutFrontMarking (h : Kept zones away W F) (i : SlotId) (w : Warrant) (r : Reason) :
    Kept zones away W (cutFrontMarking W F i w r) := by
  unfold Machine.cutFrontMarking
  split
  · exact h.retire _ _
  · exact h.markWarrant _ _

theorem Kept.cutForEstop (h : Kept zones away W F) : Kept zones away W (cutForEstop W F).1 := by
  refine cutCars_keeps (P := Kept zones away W) (fun c F hF => ?_) _ h
  refine cutEach_keeps (P := Kept zones away W) (fun F x hF => ?_) c _ hF
  unfold estopStep
  split
  · exact hF.cutFrontMarking _ _ _
  · exact hF

theorem Kept.cutForWind (h : Kept zones away W F) (entered : WindState) :
    Kept zones away W (cutForWind W entered F).1 := by
  refine cutCars_keeps (P := Kept zones away W) (fun c F hF => ?_) _ h
  refine cutEach_keeps (P := Kept zones away W) (fun F x hF => ?_) c _ hF
  unfold windStep
  split
  · exact hF
  · rename_i w hw
    simp only []
    split
    · exact hF
    · split
      · split
        · refine (Akin.raiseCuts _ _ _).kept ?_
          split
          · exact hF.markWarrant _ _
          · exact hF.retire _ _
        · exact hF
      · split
        · rcases cutFront_cases W .wind F x.slot w with ⟨-, e⟩ | ⟨-, e⟩
          · rw [e]; exact hF
          · rw [e]; exact (Akin.raise _ _).kept (hF.shorten (Fleet.slot_of_live hw) _)
        · exact hF

theorem Kept.windChanged (h : Kept zones away W F) (old : WindState) : Kept zones away W (windChanged W old F) := by
  have h1 : ∀ d, Kept zones away W (F.raise d) := fun d => (Akin.raise F d).kept h
  unfold Machine.windChanged
  simp only []
  split
  · exact h
  · split
    · split
      · exact (Akin.raise _ _).kept ((h1 _).cutForWind _)
      · exact (h1 _).cutForWind _
    · exact h1 _

/-- The release of MAINT_KEY: the stacks in turn, the current warrants in turn, then the notices. -/
theorem cutForKey_eq (W : World) (F : Fleet) :
    ∃ reached d, cutForKey W F = (raiseCuts
      (cutCars (fun c F => cutEach (keyCurrentStep W) c (F.cars[c]).current.toList F) (List.finRange 16)
        (cutCars (fun c F => cutEach (keySuspendedStep W) c (F.cars[c]).stack F) (List.finRange 16) F).1).1
      .keyLost reached).raise d := by
  unfold cutForKey
  generalize cutCars (fun c F => cutEach (keySuspendedStep W) c (F.cars[c]).stack F) _ _ = out
  obtain ⟨F2, first⟩ := out
  simp only []
  generalize cutCars _ _ _ = out
  exact ⟨byCarriage first out.2, _, rfl⟩

theorem Kept.cutForKey (h : Kept zones away W F) : Kept zones away W (cutForKey W F) := by
  obtain ⟨reached, d, e⟩ := cutForKey_eq W F
  rw [e]
  refine ((Akin.raiseCuts _ _ _).trans (.raise _ _)).kept ?_
  refine cutCars_keeps (P := Kept zones away W) (fun c F hF => ?_) _ ?_
  · refine cutEach_keeps (P := Kept zones away W) (fun F x hF => ?_) c _ hF
    unfold keyCurrentStep
    split
    · exact hF
    · split
      · exact ((Akin.addHold _ _ _).kept hF).cutFrontMarking _ _ _
      · exact hF
  · refine cutCars_keeps (P := Kept zones away W) (fun c F hF => ?_) _ h
    refine cutEach_keeps (P := Kept zones away W) (fun F x hF => ?_) c _ hF
    unfold keySuspendedStep
    split
    · exact hF
    · split
      · split
        · exact hF.markWarrant _ _
        · exact hF.retire _ _
      · exact hF

/-! ## The law over another map with the same track -/

theorem Listed.of_sameTrack {W' : World} {open' : SlotId → Prop} (hm : SameTrack W.map W'.map)
    (h : Listed W zones away open' F) : Listed W' zones away open' F where
  ordered := h.ordered
  oneSlot := h.oneSlot
  belongs r e he := by
    obtain ⟨w, hw, hc, hr, hs⟩ := h.belongs r e he
    exact ⟨w, hw, hc, hr, fun ho => by rw [hm.entryOf]; exact hs ho⟩
  entered := h.entered
  unlocked hu := h.unlocked (by rw [← hm.locked]; exact hu)
  held hz z c hc := by
    rw [hm.locked, hm.reachedZones]
    exact h.held hz z c hc

theorem Kept.of_sameTrack {W' : World} (h : Kept zones away W F) (hm : SameTrack W.map W'.map) :
    Kept zones away W' F :=
  ⟨h.lists.of_sameTrack hm, h.book⟩

/-- On an UNLOCKED map no carriage has a handle, no list an entry, and, where holders are claimed, no zone one. -/
theorem Kept.unlocked (h : Kept zones away W F) (hu : W.map.locked = false) :
    (∀ c : CarId, (F.cars[c]).current = none ∧ (F.cars[c]).stack = []) ∧ (∀ r : RunId, F.occupancy[r] = []) ∧
      (∀ i : SlotId, (F.slots[i]).warrant = none) ∧ (zones → ∀ z : ZoneId, F.holders[z] = none) := by
  have hfree := h.lists.unlocked hu
  have hdead : ∀ x w, F.live x ≠ some w := fun x w hx => by
    have := Fleet.slot_of_live hx
    rw [hfree] at this; cases this
  refine ⟨fun c => ⟨?_, ?_⟩, fun r => ?_, hfree, fun hz z => ?_⟩
  · cases hx : (F.cars[c]).current with
    | none => rfl
    | some x => obtain ⟨w, hw, -⟩ := h.book.current c x hx; exact absurd hw (hdead x w)
  · exact List.eq_nil_iff_forall_not_mem.mpr fun x hx => by
      obtain ⟨w, hw, -⟩ := h.book.stacked c x hx; exact hdead x w hw
  · exact List.eq_nil_iff_forall_not_mem.mpr fun e he => by
      obtain ⟨w, hw, -⟩ := h.lists.belongs r e he; exact hdead _ w hw
  · cases hc : F.holders[z] with
    | none => rfl
    | some c => have := (h.lists.held hz z c hc).1; rw [hu] at this; cases this

/-- A fleet without a warrant, an entry or a handle meets the law over every map, when its holders do. -/
theorem Kept.of_bare (hc : ∀ c : CarId, (F.cars[c]).current = none ∧ (F.cars[c]).stack = [])
    (ho : ∀ r : RunId, F.occupancy[r] = []) (hs : ∀ i : SlotId, (F.slots[i]).warrant = none)
    (hh : zones → ∀ (z : ZoneId) (c : CarId), F.holders[z] = some c →
      W.map.locked = true ∧ (away c ∨ z ∈ reachedZones W F c)) : Kept zones away W F := by
  refine ⟨⟨fun r => by rw [ho]; exact .nil, fun r => by rw [ho]; exact .nil, fun r e he => ?_, fun i w hw => ?_,
    fun _ => hs, hh⟩, ⟨fun c x hx => ?_, fun c x hx => ?_, fun i w hw => ?_, fun c => ?_⟩⟩
  · rw [ho] at he; cases he
  · rw [hs] at hw; cases hw
  · rw [(hc c).1] at hx; cases hx
  · rw [(hc c).2] at hx; cases hx
  · rw [hs] at hw; cases hw
  · rw [(hc c).2]; exact .nil

end Sys2Proof.Machine
end

section
namespace Sys2Proof.Machine

/-! ## What a command can do to the records -/

section Records

variable {Q : Records → Prop}

/-- A property of the records that a request's act keeps is kept by serving the request. -/
theorem serve_keeps {i : Instr} {p : Port} {act : Frame → Records → Records × Answer} {s : State}
    (hact : ∀ f r, Q r → Q (act f r).1) (h : Q s.records) : Q (serve i p act s).records := by
  rcases serve_cases i p act s with e | ⟨f, rest, -, -, -, e⟩
  · rw [e]; exact h
  · rw [e, State.answer_records]; exact hact f _ h

/-- A property of the records that a request's rule keeps is kept by judging the request. -/
theorem judge_keeps {α : Type} {decode : List Byte → Option α} {rule : Origin → α → Records → Records × Answer}
    (p : Port) (hrule : ∀ o x r, Q r → Q (rule o x r).1) (f : Frame) (r : Records) (h : Q r) :
    Q (judge decode rule p f r).1 := by
  rcases judge_cases decode rule p f r with e | ⟨x, -, e⟩
  · rw [e]; exact h
  · rw [e]; exact hrule _ x r h

theorem request_keeps {α : Type} {decode : List Byte → Option α} {rule : Origin → α → Records → Records × Answer}
    {i : Instr} {p : Port} {s : State} (hrule : ∀ o x r, Q r → Q (rule o x r).1) (h : Q s.records) :
    Q (serve i p (judge decode rule p) s).records :=
  serve_keeps (judge_keeps p hrule) h

theorem lockFirst_keeps {r : Records} {rest : Records × Answer} (h : Q r) (hr : r.world.map.locked = false → Q rest.1) :
    Q (lockFirst r rest).1 := by
  unfold lockFirst
  split
  · exact h
  · rename_i hl; exact hr (by simpa using hl)

theorem assuredOnly_keeps {o : Origin} {r : Records} {rest : Records × Answer} (h : Q r) (hr : Q rest.1) :
    Q (assuredOnly o r rest).1 := by
  cases o
  · exact h
  · exact hr

theorem withHandle_keeps {o : Origin} {slot generation point : Nat} {r : Records}
    {k : SlotId → Warrant → Records × Answer} (h : Q r)
    (hk : ∀ i w, (r.fleet.slots[i]).warrant = some w → Q (k i w).1) : Q (withHandle o slot generation point r k).1 := by
  rcases withHandle_cases o slot generation point r k with ⟨st, e⟩ | ⟨i, w, -, hw, -, e⟩
  · rw [e]; exact h
  · rw [e]; exact hk i w (Fleet.slot_of_live hw)

theorem withBay_keeps {r : Records} {run bay : Nat} {k : RunId → Bay → Records × Answer} (h : Q r)
    (hk : ∀ i b, Q (k i b).1) : Q (withBay r run bay k).1 := by
  rcases withBay_cases r run bay k with ⟨st, e⟩ | ⟨i, b, -, -, -, e⟩
  · rw [e]; exact h
  · rw [e]; exact hk i b

/-- The ports change the records by FRAME_ERROR alone: what an occurrence of a notice keeps, each port operation keeps. -/
def Records.raiseKeeps (Q : Records → Prop) : Prop := ∀ (r : Records) (d : Detail), Q r → Q { r with fleet := r.fleet.raise d }

section Ports

variable (hQ : Records.raiseKeeps Q) {p : Port} {s : State}

include hQ

theorem frameError_keeps (fault : FrameFault) (h : Q s.records) : Q (frameError p fault s).records := hQ _ _ h

theorem afterGap_keeps (h : Q s.records) : Q (afterGap p s).records := by
  by_cases ho : s.outlasted p
  · rw [afterGap_of_outlasted ho]
    exact frameError_keeps hQ _ (by rw [toHunting, State.modPort_records]; exact h)
  · rw [afterGap_of_not_outlasted ho]; exact h

theorem wholeFrameIn_keeps {bytes : List Byte} (h : Q s.records) : Q (wholeFrameIn p bytes s).records := by
  unfold wholeFrameIn
  cases p <;> simp only [] <;> split
  · exact h
  · exact frameError_keeps hQ _ h
  · exact h
  · exact frameError_keeps hQ _ h

theorem assemble_keeps {b : Byte} (h : Q s.records) : Q (assemble p b s).records := by
  have h1 : Q (s.modPort p (fun q => { q with lastByte := s.records.world.now })).records := by
    rw [State.modPort_records]; exact h
  unfold assemble
  simp only []
  split
  · split
    · rw [State.modPort_records]; exact h1
    · exact h
  · split
    · exact frameError_keeps hQ _ (by rw [toHunting, State.modPort_records]; exact h1)
    · rw [State.modPort_records]; exact h1
  · split
    · exact wholeFrameIn_keeps hQ h1
    · rw [State.modPort_records]; exact h1

theorem byteIn_keeps {b : Byte} (h : Q s.records) : Q (byteIn p b s).records := by
  unfold byteIn
  split
  · rw [State.drive_records]; exact assemble_keeps hQ (afterGap_keeps hQ h)
  · have h1 : Q (clock 1 s).records := by rw [(clock_keeps 1 s).1]; exact h
    split
    · exact h
    · split
      · rw [State.drive_records]; exact assemble_keeps hQ h1
      · rw [State.drive_records]; exact h1

theorem endFrame_keeps {bytes : List Byte} {finish : State → State} (hf : ∀ s, Q s.records → Q (finish s).records)
    (h : Q s.records) : Q (endFrame p bytes finish s).records := by
  have h1 := afterGap_keeps hQ (p := p) h
  have h2 : Q (clockRest p bytes (afterGap p s)).records := by
    cases p
    · exact h1
    · rw [clockRest, (clock_keeps _ _).1]; exact h1
  unfold endFrame
  simp only []
  split
  · rw [State.drive_records]
    exact hf _ (by rw [stampByte, State.modPort_records]; exact h2)
  · exact h

end Ports

/-- What makes a property of the records one that every command keeps: it holds at a start, and each request's rule and
each event's act keeps it. -/
structure RecordsLaw (Q : Records → Prop) : Prop where
  raise : Records.raiseKeeps Q
  start : ∀ pins n, Q (startRecords pins n)
  tick : ∀ r, Q r → Q { r with world := { r.world with now := r.world.now + 1 } }
  report : ∀ o q r, Q r → Q (reportRule o q r).1
  ask : ∀ o q r, Q r → Q (askRule o q r).1
  extend : ∀ o q r, Q r → Q (extendRule o q r).1
  trim : ∀ o q r, Q r → Q (trimRule o q r).1
  release : ∀ o q r, Q r → Q (releaseRule o q r).1
  confirm : ∀ o q r, Q r → Q (confirmRule o q r).1
  hold : ∀ o q r, Q r → Q (holdRule o q r).1
  unhold : ∀ o q r, Q r → Q (unholdRule o q r).1
  clear : ∀ o q r, Q r → Q (clearRule o q r).1
  wind : ∀ o q r, Q r → Q (windRule o q r).1
  peek : ∀ o q r, Q r → Q (peekRule o q r).1
  notices : ∀ o q r, Q r → Q (noticesRule o q r).1
  marks : ∀ o q r, Q r → Q (marksRule o q r).1
  setrun : ∀ o q r, Q r → Q (setrunRule o q r).1
  setbay : ∀ o q r, Q r → Q (setbayRule o q r).1
  truncate : ∀ o q r, Q r → Q (truncateRule o q r).1
  setzone : ∀ o q r, Q r → Q (setzoneRule o q r).1
  setcar : ∀ o q r, Q r → Q (setcarRule o q r).1
  setcarNo : ∀ o q r, Q r → Q (setcarNoRule o q r).1
  lock : ∀ o q r, Q r → Q (lockRule o q r).1
  unlock : ∀ o q r, Q r → Q (unlockRule o q r).1
  service : ∀ o q r, Q r → Q (serviceRule o q r).1
  ceiling : ∀ o q r, Q r → Q (ceilingRule o q r).1
  setwind : ∀ o q r, Q r → Q (setwindRule o q r).1
  cond : ∀ o q r, Q r → Q (condRule o q r).1
  mask : ∀ o q r, Q r → Q (maskRule o q r).1
  maint : ∀ o q r, Q r → Q (maintRule o q r).1
  endmaint : ∀ o q r, Q r → Q (endmaintRule o q r).1
  restore : ∀ o q r, Q r → Q (restoreRule o q r).1
  restart : ∀ o q r, Q r → Q (restartRule o q r).1
  estop : ∀ r, Q r → Q (estopRecords r)
  estopLine : ∀ v r, Q r → Q (putEstopLine v r)
  keyReleased : ∀ r, Q r → Q (keyReleasedRecords r)
  key : ∀ v r, Q r → Q (putKey v r)
  storm : ∀ r, Q r → Q (r.withWind r.world.wind.storming)
  windTimeout : ∀ r, Q r → Q (takeWindTimeout r)
  windLine : ∀ r (st : WindState) (v : Bool), Q r → Q (r.setWind (fun w => { w with stormLine := v, state := st }))
  condition : ∀ n v r, Q r → Q (changeCondition n v r)
  conditionLine : ∀ n v r, Q r → Q (putCondition n v r)
  mute : ∀ r c, Q r → Q { r with fleet := becomeMute r.fleet c }
  expire : ∀ r i, Q r → Q { r with fleet := expire r.world r.fleet i }

/-- Every command keeps a law of the records. -/
theorem RecordsLaw.exec (law : RecordsLaw Q) {c : Instr} {s t : State} (ht : exec c s = .next t) (h : Q s.records) :
    Q t.records := by
  have short : ∀ p : Port, Q (endShort p s).records := fun p =>
    frameError_keeps law.raise _ (by rw [toHunting, State.modPort_records]; exact h)
  cases c
  case powerOn pins => cases ht; exact law.start pins _
  case resetAsserted => cases ht; exact law.start s.pins _
  case frameReceived p bytes =>
    cases ht
    split
    · exact h
    · exact endFrame_keeps law.raise (fun s => wholeFrameIn_keeps law.raise) h
  case frameLengthFault p n =>
    cases ht
    split
    · exact h
    · refine endFrame_keeps law.raise (fun s hs => frameError_keeps law.raise _ ?_) h
      rw [toHunting, State.modPort_records]; exact hs
  case characterGapExpiry cause =>
    cases ht
    split
    · exact h
    · split
      · split
        · exact short _
        · exact h
      · exact short _
  case assuredTransferEnd =>
    cases ht
    split
    · exact h
    · simp only [State.drive_records]
      split
      · exact h
      · exact short _
  case replySent p =>
    cases ht
    split
    · exact h
    · split
      · exact h
      · split
        · split
          · rw [State.drive_records, (clock_keeps _ _).1]; exact h
          · exact h
        · exact h
  case byteReceived p b =>
    cases ht
    split
    · exact h
    · exact byteIn_keeps law.raise h
  case selAsserted =>
    cases ht
    split <;> exact h
  case unknownRequestCode p => cases ht; exact serve_keeps (fun _ _ h => h) h
  case tick =>
    cases ht
    split
    · exact h
    · exact law.tick _ h
  case report p => cases ht; exact request_keeps law.report h
  case ask p => cases ht; exact request_keeps law.ask h
  case extend p => cases ht; exact request_keeps law.extend h
  case trim p => cases ht; exact request_keeps law.trim h
  case release p => cases ht; exact request_keeps law.release h
  case confirm p => cases ht; exact request_keeps law.confirm h
  case hold p => cases ht; exact request_keeps law.hold h
  case unhold p => cases ht; exact request_keeps law.unhold h
  case clear p => cases ht; exact request_keeps law.clear h
  case wind p => cases ht; exact request_keeps law.wind h
  case peek p => cases ht; exact request_keeps law.peek h
  case notices p => cases ht; exact request_keeps law.notices h
  case marks p => cases ht; exact request_keeps law.marks h
  case setrun p => cases ht; exact request_keeps law.setrun h
  case setbay p => cases ht; exact request_keeps law.setbay h
  case setbayTruncate p => cases ht; exact request_keeps law.truncate h
  case setzone p => cases ht; exact request_keeps law.setzone h
  case setcar p => cases ht; exact request_keeps law.setcar h
  case setcarConfiguredNo p => cases ht; exact request_keeps law.setcarNo h
  case lock p => cases ht; exact request_keeps law.lock h
  case unlock p => cases ht; exact request_keeps law.unlock h
  case service p => cases ht; exact request_keeps law.service h
  case ceiling p => cases ht; exact request_keeps law.ceiling h
  case setwind p => cases ht; exact request_keeps law.setwind h
  case cond p => cases ht; exact request_keeps law.cond h
  case mask p => cases ht; exact request_keeps law.mask h
  case maint p => cases ht; exact request_keeps law.maint h
  case endmaint p => cases ht; exact request_keeps law.endmaint h
  case restore p => cases ht; exact request_keeps law.restore h
  case restart p =>
    cases ht
    refine request_keeps law.restart ?_
    unfold discardWaiting
    split <;> exact h
  case estopAsserted =>
    cases ht
    split
    · exact h
    · split
      · exact law.estopLine _ _ h
      · exact law.estop _ h
  case estopReleased => cases ht; exact law.estopLine _ _ h
  case maintKeyReleased =>
    cases ht
    split
    · exact h
    · split
      · exact law.key _ _ h
      · exact law.keyReleased _ h
  case maintKeyAsserted => cases ht; exact law.key _ _ h
  case stormAsserted =>
    cases ht
    split
    · exact law.windLine _ _ _ h
    · exact law.storm _ h
  case stormReleased =>
    cases ht
    split
    · exact h
    · split
      · exact law.windLine _ _ _ h
      · exact law.windTimeout _ (law.windLine _ s.records.world.wind.state _ h)
  case condLineChange n v =>
    cases ht
    split
    · exact law.conditionLine _ _ _ h
    · exact law.condition _ _ _ h
  case muteExpiry c =>
    cases ht
    split
    · exact h
    · exact law.mute _ _ h
  case warrantExpiry i =>
    cases ht
    split
    · exact h
    · exact law.expire _ _ h
  case windTimeout =>
    cases ht
    split
    · exact h
    · exact law.windTimeout _ h

/-- Every step keeps a law of the records. -/
theorem RecordsLaw.step (law : RecordsLaw Q) {s t : State} (ht : step s = .next t) (h : Q s.records) : Q t.records := by
  unfold Machine.step at ht
  split at ht
  · cases ht; exact h
  · exact law.exec ht h

end Records

end Sys2Proof.Machine
end

section
namespace Sys2Proof.Machine

/-! ## The map's changes that keep its track -/

theorem TrackMap.setRun_get (m : TrackMap) (i r : RunId) (run : Run) :
    (m.setRun i run).runs[r] = if r = i then run else m.runs[r] := by
  by_cases h : r = i
  · subst h; simp [TrackMap.setRun]
  · have : (i : Nat) ≠ (r : Nat) := fun e => h (Fin.ext e.symm)
    simp [TrackMap.setRun, h, this]

theorem SameTrack.setRun (m : TrackMap) (i : RunId) {bays : List Bay}
    (h : bays.map (fun b => (b.shape, b.zone)) = (m.runs[i]).bays.map (fun b => (b.shape, b.zone))) :
    SameTrack m (m.setRun i { m.runs[i] with bays := bays }) := by
  refine ⟨rfl, rfl, fun r => ?_, fun r => ?_⟩ <;> rw [TrackMap.setRun_get] <;> split
  · rename_i e; subst e; rfl
  · rfl
  · rename_i e; subst e; exact h
  · rfl

theorem markBays_map {α : Type} (g : Bay → α) (hg : ∀ b t s, g { b with traversed := t, stoppedIn := s } = g b)
    (nums : List Nat) (stopped : Bool) (n : Nat) (bays : List Bay) :
    (markBays nums stopped n bays).map g = bays.map g := by
  induction bays generalizing n with
  | nil => rfl
  | cons b bs ih =>
    simp only [markBays, List.map_cons, ih, List.cons.injEq, and_true]
    split
    · exact hg b true _
    · rfl

theorem SameTrack.setMarks (W : World) (F : Fleet) (c : CarId) (v : Nat) : SameTrack W.map (setMarks W F c v).map :=
  .setRun _ _ (markBays_map _ (fun _ _ _ => rfl) _ _ _ _)

theorem SameTrack.clearMarks (m : TrackMap) (i : RunId) : SameTrack m (m.setRun i (clearMarks m.runs[i])) :=
  .setRun _ _ (by simp [Function.comp_def])

theorem SameTrack.modBay (m : TrackMap) (i : RunId) (b : Nat) (f : Bay → Bay)
    (hf : ∀ x, ((f x).shape, (f x).zone) = (x.shape, x.zone)) : SameTrack m (m.modBay i b f) := by
  refine .setRun _ _ (List.ext_getElem? fun j => ?_)
  simp only [List.getElem?_map, List.getElem?_modify]
  cases (m.runs[i]).bays[j]? with
  | none => rfl
  | some x =>
    by_cases e : b = j
    · simp only [e, if_true, Option.map_eq_map, Option.map_some, hf]
    · simp only [e, if_false, Option.map_eq_map, Option.map_some]

/-! ## The lists, holders and book through every command -/

/-- The law as one of the records. -/
def Records.Kept (zones : Prop) (r : Records) : Prop := Machine.Kept zones nobody r.world r.fleet

section

variable {zones : Prop} {r : Records} {W : World} {F G : Fleet}

theorem Records.Kept.akin (h : r.Kept zones) (ha : Akin r.fleet G) : Records.Kept zones { r with fleet := G } :=
  ha.kept h

/-- A change of the map that keeps its track. -/
theorem Records.Kept.withMap (h : r.Kept zones) {m : TrackMap} (hm : SameTrack r.world.map m) :
    (r.withMap m).Kept zones :=
  Machine.Kept.of_sameTrack h hm

theorem Records.Kept.mapped {G : Fleet} (_ : r.Kept zones) (hG : Machine.Kept zones nobody r.world G) :
    Records.Kept zones { r with fleet := G } := hG

theorem Records.Kept.withWorld (h : r.Kept zones) {W : World} (hm : SameTrack r.world.map W.map) :
    Records.Kept zones { r with world := W } :=
  Machine.Kept.of_sameTrack h hm

/-- On an UNLOCKED map every change of the map that leaves it so, and of the records of carriages that leaves them without
warrants, keeps the law. -/
theorem Records.Kept.edited (h : r.Kept zones) (hu : r.world.map.locked = false) {W' : World} {G : Fleet}
    (hc : ∀ c : CarId, (G.cars[c]).current = none ∧ (G.cars[c]).stack = []) (hs : G.slots = r.fleet.slots)
    (ho : G.occupancy = r.fleet.occupancy) (hh : G.holders = r.fleet.holders) :
    Machine.Kept zones nobody W' G := by
  obtain ⟨-, hl, hw, hz⟩ := h.unlocked hu
  refine .of_bare hc (fun r => by rw [ho]; exact hl r) (fun i => by rw [hs]; exact hw i) fun z k c hk => ?_
  rw [hh, hz z] at hk
  cases hk

theorem Records.Kept.mapEdited (h : r.Kept zones) (hu : r.world.map.locked = false) (m : TrackMap) :
    (r.withMap m).Kept zones :=
  h.edited hu (h.unlocked hu).1 rfl rfl rfl

/-! ### Map requests -/

theorem setrunRule_keeps (o : Origin) (q : SetRunBody) (h : r.Kept zones) : (setrunRule o q r).1.Kept zones := by
  refine lockFirst_keeps h fun hu => ?_
  split
  · split
    · exact h
    · split
      · split
        · exact h.mapEdited hu _
        · exact h
      · exact h.mapEdited hu _
  · exact h

theorem setbayRule_keeps (o : Origin) (q : SetBayBody) (h : r.Kept zones) : (setbayRule o q r).1.Kept zones := by
  refine lockFirst_keeps h fun hu => ?_
  split
  · split
    · exact h
    · simp only []
      split
      · exact h
      · split
        · exact h
        · exact h.mapEdited hu _
  · exact h

theorem truncateRule_keeps (o : Origin) (q : SetBayBody) (h : r.Kept zones) : (truncateRule o q r).1.Kept zones := by
  refine lockFirst_keeps h fun hu => ?_
  split
  · split
    · exact h
    · simp only []
      split
      · exact h
      · split
        · exact h
        · exact h.mapEdited hu _
  · exact h

theorem setzoneRule_keeps (o : Origin) (q : SetZoneBody) (h : r.Kept zones) : (setzoneRule o q r).1.Kept zones := by
  refine lockFirst_keeps h fun hu => ?_
  split
  · exact h.mapEdited hu _
  · exact h

theorem serviceRule_keeps (o : Origin) (q : TripleBody) (h : r.Kept zones) : (serviceRule o q r).1.Kept zones := by
  refine assuredOnly_keeps h ?_
  split
  · exact h
  · rename_i v _
    refine withBay_keeps h fun i b => ?_
    have h1 := h.withMap (.modBay r.world.map i q.snd (fun b => { b with inService := v }) fun _ => rfl)
    simp only []
    split
    · exact h1.mapped (Kept.cutToUnit h1 _)
    · exact h1

theorem Akin.recomputeCeilings (W : World) (run : RunId) (b : Nat) (F : Fleet) :
    Akin F (recomputeCeilings W run b F) := by
  unfold Machine.recomputeCeilings
  induction List.finRange 48 generalizing F with
  | nil => exact .refl F
  | cons i is ih =>
    refine Akin.trans ?_ (ih _)
    beta_reduce
    split
    · split
      · exact .receiling W F i
      · exact .refl F
    · exact .refl F

theorem ceilingRule_keeps (o : Origin) (q : CeilingBody) (h : r.Kept zones) : (ceilingRule o q r).1.Kept zones := by
  refine assuredOnly_keeps h ?_
  split
  · exact h
  · refine withBay_keeps h fun i b => ?_
    have h1 := h.withMap (.modBay r.world.map i q.bay (fun b => { b with ceiling := q.ceiling }) fun _ => rfl)
    simp only []
    split
    · exact h1.akin (.recomputeCeilings _ _ _ _)
    · exact h1

/-- What a carriage's present extent reaches it reaches. -/
theorem extentZones_subset {c : CarId} {z : ZoneId} (h : z ∈ extentZones W F c) : z ∈ reachedZones W F c := by
  simp only [extentZones, reachedZones, claim, zonesOf, List.flatMap_append] at h ⊢
  exact List.mem_append_right _ h

theorem lowestReaching_reaches {c : CarId} {z : ZoneId} (h : lowestReaching W F z = some c) :
    (F.cars[c]).configured = true ∧ z ∈ extentZones W F c := by
  simpa using List.find?_some h

/-- Present extents depend on run and pose alone. -/
theorem extentZones_congr {c : CarId} (hc : (G.cars[c]).cfg.run = (F.cars[c]).cfg.run)
    (hp : (G.cars[c]).pose = (F.cars[c]).pose) : extentZones W G c = extentZones W F c := by
  simp only [extentZones, occupied, presentExtent, runOf, hc, hp]
  rfl

/-- Other holders, each of which reaches the zone on a LOCKED map. -/
theorem Kept.withHolders (h : Kept zones nobody W F) (hh : Vector (Option CarId) 32)
    (hr : ∀ (z : ZoneId) (c : CarId), hh[z] = some c → W.map.locked = true ∧ z ∈ reachedZones W F c) :
    Kept zones nobody W { F with holders := hh } :=
  ⟨{ h.lists with held := fun _ z c hz => ⟨(hr z c hz).1, .inr (hr z c hz).2⟩ },
    BookAkin.book (F := F) (G := { F with holders := hh }) (.of_eq rfl rfl) h.book⟩

/-- The holders `lock` sets are each reached by the zone's holder. -/
theorem Kept.lockHolders (h : Kept zones nobody W F) (hl : W.map.locked = true) :
    Kept zones nobody W (lockHolders W F) := by
  refine h.withHolders _ fun z c hz => ⟨hl, ?_⟩
  simp only [Fin.getElem_fin, Vector.getElem_ofFn, Fin.eta] at hz
  exact extentZones_subset (lowestReaching_reaches hz).2

theorem lockRule_keeps (o : Origin) (q : Unit) (h : r.Kept zones) : (lockRule o q r).1.Kept zones := by
  refine assuredOnly_keeps h ?_
  split
  · exact h
  · rename_i hu
    have hu : r.world.map.locked = false := by simpa using hu
    split
    · exact h
    · obtain ⟨hc, ho, hw, hz'⟩ := h.unlocked hu
      have h0 : Records.Kept zones (r.withMap { r.world.map with locked := true }) :=
        Kept.of_bare hc ho hw fun hzones z c hz => nomatch (hz' hzones z).symm.trans hz
      have h1 := Kept.lockHolders h0 rfl
      simp only []
      split
      · exact (Akin.addHoldAll _ _).kept h1
      · exact h1

theorem anyLive_eq_false_iff (F : Fleet) : F.anyLive = false ↔ ∀ i : SlotId, (F.slots[i]).warrant = none := by
  simp [Fleet.anyLive]

/-- Without a live warrant there is no handle on a carriage and no entry on a list. -/
theorem Kept.bare {away : CarId → Prop} (h : Kept zones away W F) (hw : ∀ i : SlotId, (F.slots[i]).warrant = none) :
    (∀ c : CarId, (F.cars[c]).current = none ∧ (F.cars[c]).stack = []) ∧ ∀ r : RunId, F.occupancy[r] = [] := by
  have h' : Kept False away { W with map := { W.map with locked := false } } F :=
    ⟨⟨h.lists.ordered, h.lists.oneSlot, h.lists.belongs, h.lists.entered, fun _ => hw, False.elim⟩, h.book⟩
  exact ⟨(h'.unlocked rfl).1, (h'.unlocked rfl).2.1⟩

theorem unlockRule_keeps (o : Origin) (q : Unit) (h : r.Kept zones) : (unlockRule o q r).1.Kept zones := by
  refine assuredOnly_keeps h ?_
  split
  · exact h
  · rename_i hl
    have hw := (anyLive_eq_false_iff r.fleet).mp (by simpa using hl)
    split
    · obtain ⟨hc, ho⟩ := h.bare hw
      refine Kept.of_bare hc ho hw fun _ z c hz => ?_
      simp [Fleet.clearHolders] at hz
    · exact h

theorem marksRule_keeps (o : Origin) (q : PairBody) (h : r.Kept zones) : (marksRule o q r).1.Kept zones := by
  unfold marksRule
  split
  · simp only []
    split
    · exact h.withMap (.clearMarks _ _)
    · exact h
  · exact h

/-! ### Carriages -/

theorem Fleet.modCar_bare (hF : ∀ c : CarId, (F.cars[c]).current = none ∧ (F.cars[c]).stack = []) (c : CarId)
    (f : Carriage → Carriage) (hf : (f F.cars[c]).current = none ∧ (f F.cars[c]).stack = []) (d : CarId) :
    ((F.modCar c f).cars[d]).current = none ∧ ((F.modCar c f).cars[d]).stack = [] := by
  rw [Fleet.modCar_get]
  split
  · exact hf
  · exact hF d

theorem setcarRule_keeps (o : Origin) (q : SetCarBody) (h : r.Kept zones) : (setcarRule o q r).1.Kept zones := by
  refine lockFirst_keeps h fun hu => ?_
  split
  · split
    · exact h
    · split
      · exact h
      · split
        · exact h
        · exact h.edited hu (Fleet.modCar_bare (h.unlocked hu).1 _ _ ⟨rfl, rfl⟩) rfl rfl rfl
  · exact h

theorem setcarNoRule_keeps (o : Origin) (q : Nat) (h : r.Kept zones) : (setcarNoRule o q r).1.Kept zones := by
  refine lockFirst_keeps h fun hu => ?_
  split
  · exact h.edited hu (Fleet.modCar_bare (h.unlocked hu).1 _ _ ⟨rfl, rfl⟩) rfl rfl rfl
  · exact h

/-- A carriage that has moved need not reach the zones it holds. -/
theorem Listed.moved {away : CarId → Prop} {open' : SlotId → Prop} {c : CarId} (h : Listed W zones away open' F)
    (hs : G.slots = F.slots) (ho : G.occupancy = F.occupancy) (hh : G.holders = F.holders)
    (hcfg : ∀ d : CarId, (G.cars[d]).cfg = (F.cars[d]).cfg)
    (hpose : ∀ d : CarId, d ≠ c → (G.cars[d]).pose = (F.cars[d]).pose) :
    Listed W zones (fun d => away d ∨ d = c) open' G := by
  have hlive : G.live = F.live := by funext x; simp only [Fleet.live, hs]
  have hhandle : G.handleOf = F.handleOf := by funext i; simp only [Fleet.handleOf, hs]
  refine ⟨fun r => by rw [ho]; exact h.ordered r, fun r => by rw [ho]; exact h.oneSlot r, fun r e he => ?_,
    fun i w hw hi => ?_, fun hu i => by rw [hs]; exact h.unlocked hu i, fun hz z d hd => ?_⟩
  · rw [ho] at he
    simpa only [hlive, hcfg] using h.belongs r e he
  · rw [hs] at hw
    simpa only [ho, hcfg, hhandle] using h.entered i w hw hi
  · rw [hh] at hd
    obtain ⟨hl, hr⟩ := h.held hz z d hd
    refine ⟨hl, ?_⟩
    by_cases hdc : d = c
    · exact .inl (.inr hdc)
    · rw [reachedZones_congr (hcfg d) (hpose d hdc) ho]
      exact hr.imp_left .inl

theorem Kept.recordReport {away : CarId → Prop} (h : Kept zones away W F) (c : CarId) (positions : List Nat)
    (speed : Int) : Kept zones (fun d => away d ∨ d = c) W (recordReport W F c positions speed) := by
  let f : Carriage → Carriage := fun k => { k with
    last := some { positions := positions, speed := speed, tick := W.now }
    pose := some (poseOf k.cfg positions)
    state := stateBySpeed k.state speed.natAbs }
  have hcars := F.modCar_rel (R := fun k k' => k'.cfg = k.cfg ∧ k'.current = k.current ∧ k'.stack = k.stack)
    (fun _ => ⟨rfl, rfl, rfl⟩) c f ⟨rfl, rfl, rfl⟩
  have hbook : BookAkin F (F.modCar c f) := ⟨fun d => (hcars d).2.1, fun d => (hcars d).2.2, .of_eq rfl⟩
  have hmoved : Kept zones (fun d => away d ∨ d = c) W (F.modCar c f) :=
    ⟨h.lists.moved rfl rfl rfl (fun d => (hcars d).1) (fun d hd => by rw [F.modCar_get_other _ hd]), hbook.book h.book⟩
  exact (Akin.refront _ c).kept hmoved

theorem takeReport_keeps (h : Kept zones nobody W F) (c : CarId) (positions : List Nat) (speed : Int) :
    Kept zones nobody (takeReport W F c positions speed).1 (takeReport W F c positions speed).2 := by
  have h4 := h.recordReport c positions speed
  unfold takeReport
  simp only []
  cases trackCheck W (recordReport W F c positions speed) c with
  | none =>
    have h6 := h4.of_sameTrack (.setMarks W (recordReport W F c positions speed) c speed.natAbs)
    exact ((h6.rezone.supervise c speed).endRunOut c _).endMute c
  | some kind =>
    have h5 := h4.trip c kind speed.natAbs false
    have h6 := h5.of_sameTrack (.setMarks W (trip W (recordReport W F c positions speed) c kind speed.natAbs false) c
      speed.natAbs)
    exact ((h6.rezone.stopStage c speed.natAbs).endRunOut c speed.natAbs).endMute c

theorem reportRule_keeps (o : Origin) (q : ReportBody) (h : r.Kept zones) : (reportRule o q r).1.Kept zones := by
  unfold reportRule
  split
  · exact h
  · split
    · exact takeReport_keeps h _ _ _
    · exact h

theorem becomeMute_akin (F : Fleet) (c : CarId) : Akin F (becomeMute F c) := by
  unfold becomeMute
  split
  · exact ((Akin.modCar F c (fun k => { k with mute := true }) ⟨rfl, rfl, rfl, rfl⟩).trans (.addHold _ c .mute)).trans
      (.raise _ _)
  · exact .refl F

/-! ### Warrants -/

theorem Fleet.Book.current_none_of_currentOf (h : F.Book) {c : CarId} (hc : F.currentOf c = none) :
    (F.cars[c]).current = none := by
  cases hx : (F.cars[c]).current with
  | none => rfl
  | some x =>
    obtain ⟨w, hw, -⟩ := h.current c x hx
    simp only [Fleet.currentOf, hx, hw] at hc; cases hc

/-- A carriage's current warrant, with its slot: the handle, the warrant and whose it is. -/
theorem Fleet.Book.currentOf_some (h : F.Book) {c : CarId} {i : SlotId} {w : Warrant} (hc : F.currentOf c = some (i, w)) :
    (F.cars[c]).current = some (F.handleOf i) ∧ (F.slots[i]).warrant = some w ∧ w.carriage = c ∧ w.state ≠ .suspended := by
  unfold Fleet.currentOf at hc
  split at hc
  · rename_i x hx
    obtain ⟨v, hv, hvc, hvs⟩ := h.current c x hx
    rw [hv, Option.map_some, Option.some.injEq, Prod.mk.injEq] at hc
    obtain ⟨rfl, rfl⟩ := hc
    exact ⟨by rw [hx, ← h.current_eq hx], Fleet.slot_of_live hv, hvc, hvs⟩
  · cases hc

theorem Kept.suspend {away : CarId → Prop} {c : CarId} {i : SlotId} {w : Warrant} (h : Kept zones away W F)
    (hc : F.currentOf c = some (i, w)) : Kept zones away W (suspend F c i) := by
  obtain ⟨hcur, hw, hwc, -⟩ := h.book.currentOf_some hc
  subst hwc
  let w' : Warrant := { w with state := .suspended, expiry := none }
  have e : Machine.suspend F w.carriage i = (F.putWarrant i (some w')).modCar w.carriage
      (fun k => { k with current := none, stack := k.stack ++ [F.handleOf i] }) := by
    simp only [Machine.suspend, Fleet.modWarrant_of_live hw, w']
  have hcars := Fleet.modCar_rel (R := fun k k' => k'.cfg = k.cfg ∧ k'.pose = k.pose) (fun _ => ⟨rfl, rfl⟩)
    (F.putWarrant i (some w')) w.carriage (fun k => { k with current := none, stack := k.stack ++ [F.handleOf i] })
    ⟨rfl, rfl⟩
  rw [e]
  constructor
  case lists =>
    have hslots : SlotsAkin Warrant.span F (F.putWarrant i (some w')) := .putWarrant hw rfl
    have ha : ListAkin F ((F.putWarrant i (some w')).modCar w.carriage
        (fun k => { k with current := none, stack := k.stack ++ [F.handleOf i] })) :=
      ⟨fun d => (hcars d).1, fun d => (hcars d).2, hslots.trans (.of_eq rfl), rfl, rfl⟩
    exact ha.listed h.lists
  case book =>
    refine h.book.setAside (w' := w') (fun j hj => ?_) hw ?_ rfl rfl hcur (fun d hd => ?_) ?_ ?_
    · rw [Fleet.modCar_slots, Fleet.putWarrant_get, if_neg hj]
    · rw [Fleet.modCar_slots, Fleet.putWarrant_get, if_pos rfl]
    · rw [Fleet.modCar_get_other _ _ hd, Fleet.putWarrant_cars]; exact ⟨rfl, rfl⟩
    · rw [Fleet.modCar_get_self]
    · rw [Fleet.modCar_get_self, Fleet.putWarrant_cars]

/-- A free slot filled: it has no entry yet. -/
theorem Listed.issued {away : CarId → Prop} {i : SlotId} (h : Listed W zones away nobody F)
    (hfree : (F.slots[i]).warrant = none) (hl : W.map.locked = true) (s : Slot) :
    Listed W zones away (fun j => j = i) { F with slots := F.slots.set i s } := by
  have hslots : F.sameSlotsBut { F with slots := F.slots.set i s } i := by
    intro j hj
    have : (i : Nat) ≠ (j : Nat) := fun e => hj (Fin.ext e.symm)
    simp [this]
  have hne : ∀ (r : RunId) (e : Entry), e ∈ F.occupancy[r] → e.handle.slot ≠ i := by
    rintro r e he rfl
    obtain ⟨w, hw, -⟩ := h.belongs r e he
    rw [Fleet.slot_of_live hw] at hfree
    cases hfree
  refine ⟨h.ordered, h.oneSlot, fun r e he => ?_, fun j w hw hj => ?_, fun hu => ?_, h.held⟩
  · obtain ⟨w, hw, hc, hr, hs⟩ := h.belongs r e he
    refine ⟨w, ?_, hc, hr, fun _ => hs id⟩
    rw [← hw]
    simp only [Fleet.live, hslots e.handle.slot (hne r e he)]
  · have hw : ({ F with slots := F.slots.set i s }.slots[j]).warrant = some w := hw
    rw [hslots j hj] at hw
    obtain ⟨e, he, hh⟩ := h.entered j w hw id
    refine ⟨e, he, hh.trans ?_⟩
    simp only [Fleet.handleOf, hslots j hj]
  · rw [hl] at hu; cases hu

theorem Kept.issue {away : CarId → Prop} {c : CarId} {i : SlotId} (h : Kept zones away W F)
    (hfree : (F.slots[i]).warrant = none) (hl : W.map.locked = true) (hnone : (F.cars[c]).current = none) (o : Origin)
    (k : Cls) (d : Dir) (target : Int) (lifetime : Nat) (res : WalkResult) :
    Kept zones away W (issue W F i c o k d target lifetime res) := by
  obtain ⟨s, w, hs, hc, hst, e⟩ : ∃ (s : Slot) (w : Warrant), s.warrant = some w ∧ w.carriage = c ∧
      w.state ≠ .suspended ∧ Machine.issue W F i c o k d target lifetime res =
        resettle W (({ F with slots := F.slots.set i s } : Fleet).modCar c
          (fun car => { car with current := some (({ F with slots := F.slots.set i s } : Fleet).handleOf i) })) i := by
    refine ⟨_, _, rfl, ?_, ?_, rfl⟩
    · rfl
    · simp
  subst hc
  rw [e]
  let F1 : Fleet := { F with slots := F.slots.set i s }
  let F2 := F1.modCar w.carriage (fun car => { car with current := some (F1.handleOf i) })
  have hcars := F1.modCar_rel (R := fun k k' => k'.cfg = k.cfg ∧ k'.pose = k.pose) (fun _ => ⟨rfl, rfl⟩) w.carriage
    (fun car => { car with current := some (F1.handleOf i) }) ⟨rfl, rfl⟩
  have hw : (F2.slots[i]).warrant = some w := by simp [F2, F1, hs]
  constructor
  case lists =>
    refine Listed.resettle (ListAkin.listed ?_ (h.lists.issued hfree hl s)) hw
    exact ⟨fun d => (hcars d).1, fun d => (hcars d).2, .of_eq rfl, rfl, rfl⟩
  case book =>
    refine (BookAkin.of_eq (F := F2) (by simp [F2, F1]) (by simp [F2, F1])).book ?_
    refine h.book.issued (w := w) (fun j hj => ?_) hfree hw hst hnone (fun d hd => ?_) ?_ ?_
    · have : (i : Nat) ≠ (j : Nat) := fun e => hj (Fin.ext e.symm)
      simp [F2, F1, this]
    · simp only [F2, Fleet.modCar_get_other _ _ hd, F1, and_self]
    · simp only [F2, Fleet.modCar_get_self]; rfl
    · simp only [F2, Fleet.modCar_get_self, F1]

theorem Kept.grant {away : CarId → Prop} {c : CarId} {i : SlotId} (h : Kept zones away W F)
    (hfree : (F.slots[i]).warrant = none) (hl : W.map.locked = true) (o : Origin)
    (k : Cls) (d : Dir) (target : Int) (lifetime : Nat) (res : WalkResult) :
    Kept zones away W (grant W F i c o k d target lifetime res) := by
  unfold Machine.grant
  split
  · rename_i j w hc
    obtain ⟨-, hw, -, -⟩ := h.book.currentOf_some hc
    have hij : i ≠ j := by rintro rfl; rw [hw] at hfree; cases hfree
    have h1 : Kept zones away W (Machine.issue W (Machine.suspend F c j) i c o k d target lifetime res) := by
      refine (h.suspend hc).issue ?_ hl ?_ o k d target lifetime res
      · rw [Machine.suspend, Fleet.modCar_slots, Fleet.modWarrant_get, if_neg hij]; exact hfree
      · rw [Machine.suspend, Fleet.modCar_get_self]
    refine (Akin.refront _ c).kept ?_
    split
    · exact (Akin.addHold _ c _).kept h1
    · exact h1
  · rename_i hc
    exact (Akin.refront _ c).kept (h.issue hfree hl (h.book.current_none_of_currentOf hc) o k d target lifetime res)

theorem askRule_keeps (o : Origin) (q : AskBody) (h : r.Kept zones) : (askRule o q r).1.Kept zones := by
  unfold askRule
  split
  · split
    · exact h
    · split
      · exact h
      · rename_i hl
        split
        · exact h
        · unfold askWalk
          simp only []
          split
          · rename_i i _ hi
            split
            · exact Kept.grant h (Fleet.freeSlot_free _ _ hi) (by simpa using hl) _ _ _ _ _ _
            · exact h
          · exact h
          · exact h
        · exact h
  · exact h

theorem extendRule_keeps (o : Origin) (q : PointBody) (h : r.Kept zones) : (extendRule o q r).1.Kept zones := by
  refine withHandle_keeps h fun i w hw => ?_
  simp only [extendWarrant]
  split
  · exact h
  · split
    · exact h
    · split
      · exact h
      · split
        · rw [Fleet.modWarrant_of_live hw]
          exact Kept.resettle_putWarrant h hw rfl
        · exact h

theorem trimRule_keeps (o : Origin) (q : PointBody) (h : r.Kept zones) : (trimRule o q r).1.Kept zones := by
  refine withHandle_keeps h fun i w hw => ?_
  simp only [trimWarrant]
  split
  · exact h
  · simp only []
    split
    · exact h
    · exact Kept.shorten h hw _

theorem releaseRule_keeps (o : Origin) (q : HandleBody) (h : r.Kept zones) : (releaseRule o q r).1.Kept zones := by
  refine withHandle_keeps h fun i w _ => ?_
  simp only [releaseWarrant]
  split
  · exact Kept.markWarrant h _ _
  · exact Kept.retire h _ _

theorem confirmRule_keeps (o : Origin) (q : HandleBody) (h : r.Kept zones) : (confirmRule o q r).1.Kept zones := by
  refine withHandle_keeps h fun i w _ => ?_
  split
  · exact h
  · exact h.akin (.modWarrant _ _ _ (fun _ => rfl) (fun _ => rfl))

theorem expire_keeps (h : Kept zones nobody W F) (i : SlotId) : Kept zones nobody W (expire W F i) := by
  unfold expire
  split
  · exact ((Akin.raise F _).kept h).retire _ _
  · exact h

/-! ### Holds -/

theorem holdRule_keeps (o : Origin) (q : Nat) (h : r.Kept zones) : (holdRule o q r).1.Kept zones := by
  unfold holdRule
  split
  · exact h
  · exact h.akin (.addHoldAll _ _)
  · split
    · exact h.akin (.addHold _ _ _)
    · exact h

theorem Kept.releaseHoldAll (h : Kept zones nobody W F) (x : Cause) : Kept zones nobody W (releaseHoldAll W F x) := by
  unfold Machine.releaseHoldAll
  induction List.finRange 16 generalizing F with
  | nil => exact h
  | cons c cs ih =>
    refine ih ?_
    beta_reduce
    split
    · exact h.releaseHold c x
    · exact h

theorem unholdRule_keeps (o : Origin) (q : PairBody) (h : r.Kept zones) : (unholdRule o q r).1.Kept zones := by
  unfold unholdRule
  split
  · split
    · exact h
    · split
      · exact h
      · split
        · exact h
        · unfold unholdTarget
          split
          · exact h.mapped (Kept.releaseHold h _ _)
          · exact h.mapped (Kept.releaseHoldAll h _)
  · exact h

theorem clearRule_keeps (o : Origin) (q : Nat) (h : r.Kept zones) : (clearRule o q r).1.Kept zones := by
  unfold clearRule
  split
  · exact h
  · split
    · exact h
    · exact h.mapped (Kept.releaseHold ((Akin.modCar _ _ _ ⟨rfl, rfl, rfl, rfl⟩).kept h) _ _)

theorem restoreRule_keeps (o : Origin) (q : Nat) (h : r.Kept zones) : (restoreRule o q r).1.Kept zones := by
  refine assuredOnly_keeps h ?_
  split
  · exact h
  · split
    · exact h.akin (.modCar _ _ _ ⟨rfl, rfl, rfl, rfl⟩)
    · exact h

/-! ### Conditions, wind, notices and restart -/

theorem Records.Kept.withWind (h : r.Kept zones) (w : Wind) : (r.withWind w).Kept zones :=
  have h1 : Records.Kept zones { r with world := { r.world with wind := w } } := h.withWorld (.refl _)
  h1.mapped (Kept.windChanged h1 _)

theorem changeCondition_keeps (n : CondId) (v : Bool) (h : r.Kept zones) : (changeCondition n v r).Kept zones := by
  unfold changeCondition
  split
  · exact h
  · have h1 : Records.Kept zones { r with world := { r.world with conditions := r.world.conditions.set n v } } :=
      h.withWorld (.refl _)
    have h2 := h1.akin (.raise _ { carriage := none, handle := none, value := .condition n v })
    simp only []
    split
    · exact h2
    · exact h2.mapped (Kept.cutToUnit h2 _)

theorem takeWindTimeout_keeps (h : r.Kept zones) : (takeWindTimeout r).Kept zones := by
  unfold takeWindTimeout
  split
  · exact h.withWind _
  · exact h

theorem Kept.retireAll (h : Kept zones nobody W F) : Kept zones nobody W (retireAll W F) := by
  unfold Machine.retireAll
  induction List.finRange 48 generalizing F with
  | nil => exact h
  | cons i is ih => exact ih (h.retireQuietly i .restart)

theorem Kept.restartHolders (h : Kept zones nobody W F) (before : Vector (Option CarId) 32) :
    Kept zones nobody W (restartHolders W before F) := by
  unfold Machine.restartHolders
  split
  · rename_i hl
    refine h.withHolders _ fun z c hz => ⟨hl, ?_⟩
    simp only [Fin.getElem_fin, Vector.getElem_ofFn, Fin.eta] at hz
    split at hz
    · split at hz
      · cases hz
        exact extentZones_subset (by assumption)
      · exact extentZones_subset (lowestReaching_reaches hz).2
    · exact extentZones_subset (lowestReaching_reaches hz).2
  · exact h.withHolders _ fun z c hz => by simp at hz

theorem Akin.mapCars (F : Fleet) (f : Carriage → Carriage)
    (hf : ∀ k, (f k).cfg = k.cfg ∧ (f k).pose = k.pose ∧ (f k).current = k.current ∧ (f k).stack = k.stack) :
    Akin F { F with cars := F.cars.map f } :=
  .of_cars rfl rfl rfl fun c => by simp only [Fin.getElem_fin, Vector.getElem_map]; exact hf _

theorem Akin.restartHolds (F : Fleet) : Akin F (restartHolds F) :=
  (Akin.addHoldAll F .assuredHold).trans
    (.mapCars _ (fun k => { k with holds := k.holds.remove .reversal }) fun _ => ⟨rfl, rfl, rfl, rfl⟩)

theorem Akin.clearNotices (F : Fleet) : Akin F (clearNotices F) :=
  .of_cars rfl rfl rfl fun _ => ⟨rfl, rfl, rfl, rfl⟩

theorem restartRule_keeps (o : Origin) (q : Unit) (h : r.Kept zones) : (restartRule o q r).1.Kept zones := by
  refine assuredOnly_keeps h ?_
  exact h.mapped (((Akin.restartHolds _).trans (.clearNotices _)).kept ((Kept.retireAll h).restartHolders r.fleet.holders))

theorem estopRecords_keeps (h : r.Kept zones) : (estopRecords r).Kept zones := by
  have h1 : Records.Kept zones { r with world := { r.world with estopLine := true } } := h.withWorld (.refl _)
  have h2 := h1.akin (.addHoldAll _ .estop)
  exact h2.mapped (((Akin.raiseCuts _ _ _).trans (.raise _ _)).kept (Kept.cutForEstop h2))

theorem keyReleasedRecords_keeps (h : r.Kept zones) : (keyReleasedRecords r).Kept zones := by
  have h1 : Records.Kept zones { r with world := { r.world with keyPresent := false, windows := Vector.replicate 8 false } } :=
    h.withWorld (.refl _)
  exact h1.mapped (Kept.cutForKey h1)

theorem startRecords_kept (pins : Pins) (n : Nat) : (startRecords pins n).Kept zones := by
  refine Kept.of_bare (fun c => ?_) (fun r => ?_) (fun i => ?_) fun _ z c hz => ?_
  · simp [startRecords, Fleet.initial, Carriage.initial]
  · simp [startRecords, Fleet.initial]
  · simp [startRecords, Fleet.initial]
  · simp [startRecords, Fleet.initial] at hz

end

/-- R66, R67, R10, R39: every command keeps the lists, the holders and the book. -/
theorem Records.kept_law (zones : Prop) : RecordsLaw (Records.Kept zones) where
  raise _ d h := h.akin (.raise _ d)
  start := startRecords_kept
  tick _ h := h.of_sameTrack (.refl _)
  report o q _ := reportRule_keeps o q
  ask o q _ := askRule_keeps o q
  extend o q _ := extendRule_keeps o q
  trim o q _ := trimRule_keeps o q
  release o q _ := releaseRule_keeps o q
  confirm o q _ := confirmRule_keeps o q
  hold o q _ := holdRule_keeps o q
  unhold o q _ := unholdRule_keeps o q
  clear o q _ := clearRule_keeps o q
  wind _ _ _ h := h.withWind _
  peek o q r h := by unfold peekRule; split <;> exact h
  notices _ _ _ h := h.akin (.of_cars rfl rfl rfl fun _ => ⟨rfl, rfl, rfl, rfl⟩)
  marks o q _ := marksRule_keeps o q
  setrun o q _ := setrunRule_keeps o q
  setbay o q _ := setbayRule_keeps o q
  truncate o q _ := truncateRule_keeps o q
  setzone o q _ := setzoneRule_keeps o q
  setcar o q _ := setcarRule_keeps o q
  setcarNo o q _ := setcarNoRule_keeps o q
  lock o q _ := lockRule_keeps o q
  unlock o q _ := unlockRule_keeps o q
  service o q _ := serviceRule_keeps o q
  ceiling o q _ := ceilingRule_keeps o q
  setwind o q r h := assuredOnly_keeps h (by split; exacts [h.of_sameTrack (.refl _), h])
  cond o q r h := assuredOnly_keeps h (by
    split
    · split
      · exact changeCondition_keeps _ _ h
      · exact h
    · exact h)
  mask o q r h := assuredOnly_keeps h (h.akin (.of_cars rfl rfl rfl fun _ => ⟨rfl, rfl, rfl, rfl⟩))
  maint o q r h := assuredOnly_keeps h (by
    split
    · exact h
    · split
      · exact h
      · exact h.of_sameTrack (.refl _))
  endmaint o q r h := assuredOnly_keeps h (by split; exacts [h, h.of_sameTrack (.refl _)])
  restore o q _ := restoreRule_keeps o q
  restart o q _ := restartRule_keeps o q
  estop _ := estopRecords_keeps
  estopLine _ _ h := h.withWorld (.refl _)
  keyReleased r h := keyReleasedRecords_keeps h
  key _ _ h := h.withWorld (.refl _)
  storm _ h := h.withWind _
  windTimeout _ := takeWindTimeout_keeps
  windLine _ _ _ h := h.of_sameTrack (.refl _)
  condition n v _ := changeCondition_keeps n v
  conditionLine _ _ _ h := h.of_sameTrack (.refl _)
  mute _ c h := h.akin (becomeMute_akin _ c)
  expire _ i h := expire_keeps h i

/-- Settles O9: every step keeps the lists with the book, and the holders with both, since every command keeps them. -/
theorem occupancyListsKept : Obligations.OccupancyListsKept := by
  intro s t ht
  constructor
  · intro h
    rw [listLaw_iff] at h ⊢
    exact (Records.kept_law False).step ht h
  · intro h
    rw [zoneLaw_iff] at h ⊢
    exact (Records.kept_law True).step ht h

end Sys2Proof.Machine
end

section
namespace Sys2Proof.Machine

/-! ## The machine after reset -/

section Reset

theorem reset_run (r : RunId) : State.reset.records.world.map.runs[r] = Run.initial := by
  simp [State.reset, World.initial]

theorem reset_car (c : CarId) : State.reset.records.fleet.cars[c] = Carriage.initial := by
  simp [State.reset, Fleet.initial]

theorem reset_slot (i : SlotId) : State.reset.records.fleet.slots[i] = { generation := 0, warrant := none } := by
  simp [State.reset, Fleet.initial]

theorem reset_list (r : RunId) : State.reset.records.fleet.occupancy[r] = [] := by
  simp [State.reset, Fleet.initial]

theorem reset_holder (z : ZoneId) : State.reset.records.fleet.holders[z] = none := by
  simp [State.reset, Fleet.initial]

theorem reset_notice (k : Fin 15) : State.reset.records.fleet.notices[k] = Notice.initial := by
  simp [State.reset, Fleet.initial]

/-- No carriage of the state after reset names a warrant. -/
theorem reset_bare (c : CarId) : (State.reset.records.fleet.cars[c]).current = none ∧
    (State.reset.records.fleet.cars[c]).stack = [] := by
  rw [reset_car]
  exact ⟨rfl, rfl⟩

/-- Settles O3, block by block. -/
theorem resetValues : Obligations.ResetValues := by
  refine ⟨fun r => reset_run r, fun z => ⟨?_, reset_holder z⟩, rfl, rfl, fun c => ?_, fun i => reset_slot i,
    fun r => ⟨reset_list r, ?_⟩, fun n => ?_, rfl, rfl, ⟨rfl, rfl, rfl, rfl, rfl, rfl, rfl, rfl, rfl, rfl, rfl⟩,
    fun k => reset_notice k, fun p => ?_, rfl, rfl, rfl, fun c => ?_, rfl⟩
  · simp [State.reset, World.initial, Zone.initial]
  · rw [reset_car]
    exact ⟨rfl, rfl, rfl, rfl, rfl, rfl, rfl, rfl, fun x => by cases x <;> rfl, rfl, rfl, rfl, rfl⟩
  · simp [State.reset, World.initial]
  · simp [State.reset, World.initial]
  · cases p <;> rfl
  · simp [State.reset]

/-- The law of lists and holders after reset. -/
theorem reset_kept (zones : Prop) : Kept zones nobody State.reset.records.world State.reset.records.fleet :=
  .of_bare reset_bare reset_list (fun i => by rw [reset_slot]) fun _ z c hz => by rw [reset_holder] at hz; cases hz

/-- No slot of the state after reset holds a warrant. -/
theorem reset_noWarrant {i : SlotId} {w : Warrant} : (State.reset.records.fleet.slots[i]).warrant ≠ some w := by
  rw [reset_slot]
  exact nofun

theorem reset_unlockedLaw : State.reset.unlockedLaw := fun _ i => by rw [reset_slot]

theorem reset_lineLaw : State.reset.lineLaw := by
  refine ⟨fun c => ?_, ?_⟩
  · rw [reset_car]
    simp [State.reset, Carriage.heldLine, Carriage.initial, Carriage.configured]
  · have hn : ∀ k ∈ List.finRange 15, (State.reset.records.fleet.notices[k]).visible = false := fun k _ => by
      rw [reset_notice]
      rfl
    exact (List.any_eq_false.mpr fun k hk => by rw [hn k hk]; exact Bool.false_ne_true).symm

/-- Settles O4: after reset there is no warrant, no holder, no count and no frame that a law could speak of. -/
theorem resetMeetsLaws : Obligations.ResetMeetsLaws := by
  have hbook : State.reset.bookLaw := ⟨(reset_kept False).book, reset_unlockedLaw⟩
  refine ⟨reset_lineLaw, hbook, (listLaw_iff _).mpr (reset_kept False), ⟨fun i w h => absurd h reset_noWarrant,
    reset_unlockedLaw⟩, fun i w h => absurd h reset_noWarrant, ⟨fun c i w h => ?_, hbook⟩, fun c => ?_, fun c => ?_,
    fun c => ?_, ?_, fun k => ?_, ?_, ?_, (zoneLaw_iff _).mpr (reset_kept True), ?_⟩
  · rw [reset_car] at h; cases h
  · rw [reset_car]; exact ⟨by simp [Carriage.initial], nofun⟩
  · rw [reset_car]; decide
  · rw [(reset_bare c).2]; decide
  · intro p
    cases p <;> decide
  · rw [reset_notice]; decide
  · intro _ r
    simp [State.reset, World.initial]
  · exact nofun
  · refine ⟨fun i w h => absurd h reset_noWarrant, fun r b hb => ?_, nofun, fun c p hp => ?_, hbook⟩
    · rw [reset_run] at hb; cases hb
    · rw [reset_car] at hp; cases hp

end Reset

end Sys2Proof.Machine
end

section
namespace Sys2Proof.Machine

/-! ## Requests that take effect -/

section Requests

variable {s : State} {i : Instr} {p : Port} {f : Frame} {rest : List Frame} {r : Records} {a : Answer}

/-- An offered request with a body of the right form is answered as its rule says. -/
theorem Offered.answers {α : Type} {decode : List Byte → Option α} {x : α}
    {rule : Origin → α → Records → Records × Answer} (h : Offered s i p f rest) (hx : decode f.body = some x)
    (hr : rule (originOf p f.station) x s.records = (r, a)) :
    Host.Outcome.next (serve i p (judge decode rule p) s) =
      (.next (s.answer p f rest r a) : Host.Outcome State Fault Refusal) := by
  rw [serve_of_offered h, judge_of_decode h hx, hr]

/-- A request whose rule gives one answer whatever the fields, when its body has the right length. -/
theorem Offered.answersAll {α : Type} {decode : List Byte → Option α}
    {rule : Origin → α → Records → Records × Answer} (h : Offered s i p f rest) (hx : ∃ x, decode f.body = some x)
    (hr : ∀ x, rule (originOf p f.station) x s.records = (r, a)) :
    Host.Outcome.next (serve i p (judge decode rule p) s) =
      (.next (s.answer p f rest r a) : Host.Outcome State Fault Refusal) := by
  obtain ⟨x, hx⟩ := hx
  exact h.answers hx (hr x)

/-! ### Bodies of table length -/

/-- A map edit of table length has its fields. -/
theorem mapEdit_decodes (b : List Byte) :
    ((Instr.setrun p).lengthFits b = true → ∃ x, decodeSetRun b = some x) ∧
    ((Instr.setbay p).lengthFits b = true → ∃ x, decodeSetBay b = some x) ∧
    ((Instr.setzone p).lengthFits b = true → ∃ x, decodeSetZone b = some x) ∧
    ((Instr.setcar p).lengthFits b = true → ∃ x, decodeSetCar b = some x) ∧
    ((Instr.setcarConfiguredNo p).lengthFits b = true → ∃ x, decodeSetCarNo b = some x) :=
  ⟨fun h => ⟨_, if_pos (eq_of_beq h)⟩, fun h => ⟨_, if_pos (eq_of_beq h)⟩, fun h => ⟨_, if_pos (eq_of_beq h)⟩,
    fun h => ⟨_, if_pos (eq_of_beq h)⟩, fun h => ⟨_, if_pos (of_decide_eq_true h)⟩⟩

/-- A request of the Assured Port alone of table length has its fields. -/
theorem assured_decodes (b : List Byte) :
    ((Instr.service p).lengthFits b = true → ∃ x, decodeTriple b = some x) ∧
    ((Instr.ceiling p).lengthFits b = true → ∃ x, decodeCeiling b = some x) ∧
    ((Instr.setwind p).lengthFits b = true → ∃ x, decodeSetWind b = some x) ∧
    ((Instr.cond p).lengthFits b = true → ∃ x, decodePair b = some x) ∧
    ((Instr.mask p).lengthFits b = true → ∃ x, decodeMask b = some x) ∧
    ((Instr.maint p).lengthFits b = true → ∃ x, decodeByte b = some x) :=
  ⟨fun h => ⟨_, if_pos (eq_of_beq h)⟩, fun h => ⟨_, if_pos (eq_of_beq h)⟩, fun h => ⟨_, if_pos (eq_of_beq h)⟩,
    fun h => ⟨_, if_pos (eq_of_beq h)⟩, fun h => ⟨_, if_pos (eq_of_beq h)⟩, fun h => ⟨_, if_pos (eq_of_beq h)⟩⟩

/-! ### The lock state and the port come first -/

/-- A map edit on a LOCKED map is refused LOCKED. -/
theorem exec_mapEdit_locked (h : Offered s i p f rest) (hfit : i.lengthFits f.body = true)
    (hl : s.records.world.map.locked = true)
    (hi : i ∈ [.setrun p, .setbay p, .setbayTruncate p, .setzone p, .setcar p, .setcarConfiguredNo p]) :
    exec i s = .next (s.answer p f rest s.records (plain .locked)) := by
  obtain ⟨hrun, hbay, hzone, hcar, hno⟩ := mapEdit_decodes (p := p) f.body
  simp only [List.mem_cons, List.not_mem_nil, or_false] at hi
  rcases hi with rfl | rfl | rfl | rfl | rfl | rfl
  · exact h.answersAll (hrun hfit) fun _ => lockFirst_locked hl _
  · exact h.answersAll (hbay hfit) fun _ => lockFirst_locked hl _
  · exact h.answersAll (hbay hfit) fun _ => lockFirst_locked hl _
  · exact h.answersAll (hzone hfit) fun _ => lockFirst_locked hl _
  · exact h.answersAll (hcar hfit) fun _ => lockFirst_locked hl _
  · exact h.answersAll (hno hfit) fun _ => lockFirst_locked hl _

/-- A request of the Assured Port alone is refused PORT_DENIED on the Open Port. -/
theorem exec_assuredOnly_open (h : Offered s i .openPort f rest) (hfit : i.lengthFits f.body = true)
    (hi : i ∈ [.service .openPort, .ceiling .openPort, .lock .openPort, .unlock .openPort, .setwind .openPort,
      .cond .openPort, .mask .openPort, .maint .openPort, .endmaint .openPort, .restore .openPort,
      .restart .openPort]) :
    exec i s = .next (s.answer .openPort f rest s.records (plain .portDenied)) := by
  obtain ⟨hservice, hceiling, hsetwind, hcond, hmask, hmaint⟩ := assured_decodes (p := .openPort) f.body
  simp only [List.mem_cons, List.not_mem_nil, or_false] at hi
  rcases hi with rfl | rfl | rfl | rfl | rfl | rfl | rfl | rfl | rfl | rfl | rfl
  · exact h.answersAll (hservice hfit) fun _ => rfl
  · exact h.answersAll (hceiling hfit) fun _ => rfl
  · exact h.answersAll ⟨(), rfl⟩ fun _ => rfl
  · exact h.answersAll ⟨(), rfl⟩ fun _ => rfl
  · exact h.answersAll (hsetwind hfit) fun _ => rfl
  · exact h.answersAll (hcond hfit) fun _ => rfl
  · exact h.answersAll (hmask hfit) fun _ => rfl
  · exact h.answersAll (hmaint hfit) fun _ => rfl
  · exact h.answersAll (hmaint hfit) fun _ => rfl
  · exact h.answersAll (hmaint hfit) fun _ => rfl
  · exact h.answersAll ⟨(), rfl⟩ fun _ => rfl

end Requests

/-- Settles O29. -/
theorem lockAndPortRefusals : Obligations.LockAndPortRefusals := by
  intro i p f rest s h hfit
  refine ⟨fun hl hi => exec_mapEdit_locked h hfit hl hi, ?_⟩
  rintro rfl hi
  exact exec_assuredOnly_open h hfit hi

end Sys2Proof.Machine
end

section
namespace Sys2Proof.Machine

/-! ## Codes and numbers of request fields -/

section Codes

theorem yesNo_eq_none_iff (x : Nat) : yesNo x = none ↔ 1 < x := by
  match x with
  | 0 => simp [yesNo]
  | 1 => simp [yesNo]
  | n + 2 => simp [yesNo]

@[simp] theorem yesNo_code (v : Bool) : yesNo (if v then 1 else 0) = some v := by cases v <;> rfl

theorem dirOf_eq_none_iff (x : Nat) : dirOf x = none ↔ x < 1 ∨ 2 < x := by
  match x with
  | 0 => simp [dirOf]
  | 1 => simp [dirOf]
  | 2 => simp [dirOf]
  | n + 3 => simp [dirOf]

@[simp] theorem dirOf_code (d : Dir) : dirOf d.code = some d := by cases d <;> rfl

theorem exposureOf_eq_none_iff (x : Nat) : exposureOf x = none ↔ x < 1 ∨ 2 < x := by
  match x with
  | 0 => simp [exposureOf]
  | 1 => simp [exposureOf]
  | 2 => simp [exposureOf]
  | n + 3 => simp [exposureOf]

@[simp] theorem exposureOf_code (e : Bool) : exposureOf (if e then 1 else 2) = some e := by cases e <;> rfl

theorem accessOf_eq_none_iff (x : Nat) : accessOf x = none ↔ x < 1 ∨ 3 < x := by
  match x with
  | 0 => simp [accessOf]
  | 1 => simp [accessOf]
  | 2 => simp [accessOf]
  | 3 => simp [accessOf]
  | n + 4 => simp [accessOf]

@[simp] theorem accessOf_code (a : Access) : accessOf a.code = some a := by cases a <;> rfl

/-- Four access entries are out of range when one of them is. -/
theorem accessSetOf_eq_none_iff (a o m e : Nat) :
    accessSetOf a o m e = none ↔ ∃ x ∈ [a, o, m, e], x < 1 ∨ 3 < x := by
  simp only [List.mem_cons, List.not_mem_nil, or_false, exists_eq_or_imp, exists_eq_left, ← accessOf_eq_none_iff]
  unfold accessSetOf
  cases accessOf a <;> cases accessOf o <;> cases accessOf m <;> cases accessOf e <;> simp

@[simp] theorem accessSetOf_codes (a : AccessSet) :
    accessSetOf a.auto.code a.operator.code a.maintenance.code a.emergency.code = some a := by
  simp [accessSetOf]

theorem optional_eq_none_iff (n x : Nat) : optional n x = none ↔ n ≤ x ∧ x ≠ 0xFF := by
  unfold optional
  split
  · simp [*]
  · by_cases h : x < n
    · simp [inTable_of_lt h, h]
    · simp [inTable_of_ge (Nat.not_lt.mp h), Nat.not_lt.mp h, *]

/-- An optional number, coded 0xFF for none, comes back from its field. -/
theorem optional_code {n : Nat} (hn : n ≤ 0xFF) (x : Option (Fin n)) : optional n ((x.map Fin.val).getD 0xFF) = some x := by
  cases x with
  | none => simp [optional]
  | some i =>
    have : (i : Nat) ≠ 0xFF := by omega
    simp [optional, this]

theorem ceilingOverride_eq_none_iff (x : Nat) : ceilingOverride x = none ↔ 1000 < x ∧ x ≠ 0xFFFF := by
  unfold ceilingOverride
  split
  · simp [*]
  · split <;> simp <;> omega

/-- A ceiling override, coded 0xFFFF for none, comes back from its field. -/
theorem ceilingOverride_code (x : Option Nat) (hx : ∀ c, x = some c → c ≤ 1000) :
    ceilingOverride (x.getD 0xFFFF) = some x := by
  cases x with
  | none => simp [ceilingOverride]
  | some c =>
    have := hx c rfl
    have hc : c ≠ 0xFFFF := by omega
    simp [ceilingOverride, hc, this]

theorem shapeOf_eq_none_iff (kind length count : Nat) : shapeOf kind length count = none ↔
    ¬((kind = 1 ∧ 200 ≤ length) ∨ (kind = 2 ∧ 100 ≤ length ∧ length ≤ 4095 ∧ 2 ≤ count ∧ count ≤ 32)) := by
  unfold shapeOf
  split
  · simp
  · simp
  · rename_i h1 h2
    simp [show kind ≠ 1 from h1, show kind ≠ 2 from h2]

end Codes

/-! ## What the map requests answer -/

section MapRules

variable {r : Records} (o : Origin)

/-- A field of a `setrun` out of its range is refused. -/
theorem setrunRule_badForm (hl : r.world.map.locked = false) (q : SetRunBody)
    (hq : 7 < q.run ∨ 1 < q.defined ∨ 5000 < q.clearance ∨
      (q.defined = 1 ∧ (q.closeDir < 1 ∨ 2 < q.closeDir ∨ q.exposure < 1 ∨ 2 < q.exposure))) :
    setrunRule o q r = (r, plain .badForm) := by
  unfold setrunRule
  rw [lockFirst_unlocked hl]
  split
  · rename_i i v hi hv
    have hrun : ¬7 < q.run := fun e => by rw [inTable_of_ge (by omega)] at hi; cases hi
    have hdef : ¬1 < q.defined := fun e => by rw [(yesNo_eq_none_iff _).mpr e] at hv; cases hv
    split
    · rfl
    · rename_i hcl
      obtain ⟨h1, hdir⟩ := ((hq.resolve_left hrun).resolve_left hdef).resolve_left hcl
      have hv1 : v = true := by rw [h1] at hv; exact (Option.some.inj hv).symm
      rw [if_pos hv1]
      split
      · rename_i d e hd he
        rcases (or_assoc.mpr hdir) with h | h
        · rw [(dirOf_eq_none_iff _).mpr h] at hd; cases hd
        · rw [(exposureOf_eq_none_iff _).mpr h] at he; cases he
      · rfl
  · rfl

/-- A field of a `setzone` out of its range is refused. -/
theorem setzoneRule_badForm (hl : r.world.map.locked = false) (q : SetZoneBody)
    (hq : 31 < q.zone ∨ 1 < q.defined ∨ (31 < q.parent ∧ q.parent ≠ 0xFF) ∨ (1000 < q.ceiling ∧ q.ceiling ≠ 0xFFFF) ∨
      1 < q.overriding ∨ (q.overriding = 1 ∧ ∃ x ∈ [q.auto, q.operator, q.maintenance, q.emergency], x < 1 ∨ 3 < x)) :
    setzoneRule o q r = (r, plain .badForm) := by
  unfold setzoneRule
  rw [lockFirst_unlocked hl]
  split
  · rename_i z v parent access ceiling hz hv hp ha hc
    exfalso
    rcases hq with h | h | h | h | h | ⟨h1, h⟩
    · rw [inTable_of_ge (by omega)] at hz; cases hz
    · rw [(yesNo_eq_none_iff _).mpr h] at hv; cases hv
    · rw [(optional_eq_none_iff _ _).mpr h] at hp; cases hp
    · rw [(ceilingOverride_eq_none_iff _).mpr h] at hc; cases hc
    · rw [accessOverride, (yesNo_eq_none_iff _).mpr h] at ha; cases ha
    · rw [accessOverride, h1, (accessSetOf_eq_none_iff _ _ _ _).mpr h] at ha; cases ha
  · rfl

/-- The access override of a `setzone` comes back from its fields. -/
theorem accessOverride_code (q : SetZoneBody) (access : Option AccessSet)
    (h : match access with
     | some a => q.overriding = 1 ∧ q.auto = a.auto.code ∧ q.operator = a.operator.code ∧
         q.maintenance = a.maintenance.code ∧ q.emergency = a.emergency.code
     | none => q.overriding = 0) : accessOverride q = some access := by
  cases access with
  | none => simp only at h; simp [accessOverride, h, yesNo]
  | some a =>
    obtain ⟨h1, ha, ho, hm, he⟩ := h
    simp [accessOverride, h1, yesNo, ha, ho, hm, he]

/-- What a `setrun` of fields in their ranges writes. -/
theorem setrunRule_done (hl : r.world.map.locked = false) (q : SetRunBody) (i : RunId) (hi : q.run = i.val)
    (hc : q.clearance ≤ 5000) :
    (q.defined = 0 → setrunRule o q r = (r.withMap (r.world.map.setRun i Run.initial), plain .done)) ∧
    ∀ (d : Dir) (e : Bool), q.defined = 1 → q.closeDir = d.code → q.exposure = (if e then 1 else 2) →
      setrunRule o q r =
        (r.withMap (r.world.map.setRun i (setRunRecord r.world.map.runs[i] d e q.clearance)), plain .done) := by
  refine ⟨fun h0 => ?_, fun d e h1 hd he => ?_⟩
  · simp [setrunRule, lockFirst_unlocked hl, hi, h0, yesNo, Nat.not_lt.mpr hc]
  · simp [setrunRule, lockFirst_unlocked hl, hi, h1, yesNo, Nat.not_lt.mpr hc, hd, he]

/-- What a `setzone` of fields in their ranges writes. -/
theorem setzoneRule_done (hl : r.world.map.locked = false) (q : SetZoneBody) (z : ZoneId) {v : Bool}
    {parent : Option ZoneId} {access : Option AccessSet} {ceiling : Option Nat} (hz : q.zone = z.val)
    (hv : q.defined = (if v then 1 else 0)) (hp : q.parent = (parent.map Fin.val).getD 0xFF)
    (hc : q.ceiling = ceiling.getD 0xFFFF) (hc' : ∀ x, ceiling = some x → x ≤ 1000)
    (ha : accessOverride q = some access) :
    setzoneRule o q r = (r.withMap (r.world.map.setZone z
      (if v then { defined := true, parent := parent, access := access, ceiling := ceiling } else Zone.initial)),
      plain .done) := by
  have hpar : optional 32 q.parent = some parent := by rw [hp]; exact optional_code (by decide) parent
  have hceil : ceilingOverride q.ceiling = some ceiling := by rw [hc]; exact ceilingOverride_code ceiling hc'
  have hzone : inTable 32 q.zone = some z := by rw [hz]; exact inTable_val z
  have hdef : yesNo q.defined = some v := by rw [hv]; exact yesNo_code v
  rw [setzoneRule, lockFirst_unlocked hl, hzone, hdef, hpar, ha, hceil]

end MapRules

/-- Settles O30. -/
theorem setrunAndSetzoneWrite : Obligations.SetrunAndSetzoneWrite := by
  refine ⟨fun p f rest s q h hx hl hq => h.answers hx (setrunRule_badForm _ hl q hq),
    fun p f rest s q h hx hl hq => h.answers hx (setzoneRule_badForm _ hl q hq),
    fun p f rest s q i h hx hi hc hl => ?_, fun p f rest s q z parent access ceiling h hx hz hl hp hc hc' ha => ?_⟩
  · obtain ⟨hno, hyes⟩ := setrunRule_done (originOf p f.station) hl q i hi hc
    exact ⟨fun h0 => h.answers hx (hno h0), fun d e h1 hd he => h.answers hx (hyes d e h1 hd he)⟩
  · have hrule := @setzoneRule_done s.records (originOf p f.station) hl q z
    have ha := accessOverride_code q access ha
    exact ⟨fun h0 => h.answers hx (hrule (v := false) hz h0 hp hc hc' ha),
      fun h1 => h.answers hx (hrule (v := true) hz h1 hp hc hc' ha)⟩

end Sys2Proof.Machine
end

section
namespace Sys2Proof.Machine

/-! ## setbay -/

section Setbay

variable {r : Records} (o : Origin)

/-- A field of a `setbay` is out of its range, but for run and bay number. -/
def bayOutOfRange (q : SetBayBody) : Prop :=
  ¬((q.kind = 1 ∧ 200 ≤ q.length) ∨
      (q.kind = 2 ∧ 100 ≤ q.length ∧ q.length ≤ 4095 ∧ 2 ≤ q.count ∧ q.count ≤ 32)) ∨ 1000 < q.ceiling ∨
    (∃ x ∈ [q.auto, q.operator, q.maintenance, q.emergency], x < 1 ∨ 3 < x) ∨ 1 < q.inService ∨ 1 < q.entryCheck ∨
    (15 < q.condition ∧ q.condition ≠ 0xFF) ∨ (31 < q.zone ∧ q.zone ≠ 0xFF)

/-- A body with a field out of range carries no bay. -/
theorem bayOf_eq_none {q : SetBayBody} (h : bayOutOfRange q) : bayOf q = none := by
  unfold bayOf
  split
  · rename_i shape access inService entryCheck condition zone hs ha hi he hc hz
    rw [if_neg]
    rcases h with h | h | h | h | h | h | h
    · rw [(shapeOf_eq_none_iff _ _ _).mpr h] at hs; cases hs
    · omega
    · rw [(accessSetOf_eq_none_iff _ _ _ _).mpr h] at ha; cases ha
    · rw [(yesNo_eq_none_iff _).mpr h] at hi; cases hi
    · rw [(yesNo_eq_none_iff _).mpr h] at he; cases he
    · rw [(optional_eq_none_iff _ _).mpr h] at hc; cases hc
    · rw [(optional_eq_none_iff _ _).mpr h] at hz; cases hz
  · rfl

theorem setbayRule_badForm (hl : r.world.map.locked = false) {q : SetBayBody}
    (hq : 7 < q.run ∨ 47 < q.bay ∨ bayOutOfRange q) : setbayRule o q r = (r, plain .badForm) := by
  unfold setbayRule
  rw [lockFirst_unlocked hl]
  split
  · rename_i i bay hi hb
    rcases hq with h | h | h
    · rw [inTable_of_ge (by omega)] at hi; cases hi
    · rw [if_pos h]
    · rw [bayOf_eq_none h] at hb; cases hb
  · rfl

theorem truncateRule_badForm (hl : r.world.map.locked = false) {q : SetBayBody} (hq : 7 < q.run ∨ 47 < q.bay) :
    truncateRule o q r = (r, plain .badForm) := by
  unfold truncateRule
  rw [lockFirst_unlocked hl]
  split
  · rename_i i hi
    rcases hq with h | h
    · rw [inTable_of_ge (by omega)] at hi; cases hi
    · rw [if_pos h]
  · rfl

theorem shapeOf_code {kind length count : Nat} {shape : BayShape}
    (h : (kind = 1 ∧ 200 ≤ length ∧ shape = .plain length) ∨
      (kind = 2 ∧ 100 ≤ length ∧ length ≤ 4095 ∧ 2 ≤ count ∧ count ≤ 32 ∧ shape = .celled length count)) :
    shapeOf kind length count = some shape := by
  rcases h with ⟨rfl, hl, rfl⟩ | ⟨rfl, h1, h2, h3, h4, rfl⟩
  · simp [shapeOf, hl]
  · simp [shapeOf, h1, h2, h3, h4]

/-- The bay comes back from its fields. -/
theorem bayOf_code {q : SetBayBody} {shape : BayShape} {access : AccessSet} {inService entryCheck : Bool}
    {condition : Option CondId} {zone : Option ZoneId} (hs : shapeOf q.kind q.length q.count = some shape)
    (ha : accessSetOf q.auto q.operator q.maintenance q.emergency = some access)
    (hi : q.inService = (if inService then 1 else 0)) (he : q.entryCheck = (if entryCheck then 1 else 0))
    (hc : q.condition = (condition.map Fin.val).getD 0xFF) (hz : q.zone = (zone.map Fin.val).getD 0xFF)
    (hl : q.ceiling ≤ 1000) :
    bayOf q = some { shape := shape, ceiling := q.ceiling, access := access, inService := inService,
                     entryCheck := entryCheck, condition := condition, zone := zone, traversed := false,
                     stoppedIn := false } := by
  have hi : yesNo q.inService = some inService := by rw [hi]; exact yesNo_code _
  have he : yesNo q.entryCheck = some entryCheck := by rw [he]; exact yesNo_code _
  have hc : optional 16 q.condition = some condition := by rw [hc]; exact optional_code (by decide) _
  have hz : optional 32 q.zone = some zone := by rw [hz]; exact optional_code (by decide) _
  rw [bayOf, hs, ha, hi, he, hc, hz]
  exact if_pos hl

/-- What a `setbay` that carries a bay answers: the run undefined, the number too high, or the bay put. -/
theorem setbayRule_of_bay (hl : r.world.map.locked = false) {q : SetBayBody} {i : RunId} {bay : Bay}
    (hi : q.run = i.val) (hb : q.bay ≤ 47) (hbay : bayOf q = some bay) :
    setbayRule o q r =
      if !(r.world.map.runs[i]).defined then (r, plain .badState)
      else if (r.world.map.runs[i]).bays.length < q.bay then (r, plain .badTarget)
      else (r.withMap (r.world.map.setRun i (putBay r.world.map.runs[i] q.bay bay)), plain .done) := by
  have hrun : inTable 8 q.run = some i := by rw [hi]; exact inTable_val i
  rw [setbayRule, lockFirst_unlocked hl, hrun, hbay]
  exact if_neg (Nat.not_lt.mpr hb)

theorem truncateRule_of_run (hl : r.world.map.locked = false) {q : SetBayBody} {i : RunId} (hi : q.run = i.val)
    (hb : q.bay ≤ 47) :
    truncateRule o q r =
      if !(r.world.map.runs[i]).defined then (r, plain .badState)
      else if (r.world.map.runs[i]).bays.length ≤ q.bay then (r, plain .badTarget)
      else (r.withMap (r.world.map.setRun i
        { r.world.map.runs[i] with bays := (r.world.map.runs[i]).bays.take q.bay }), plain .done) := by
  have hrun : inTable 8 q.run = some i := by rw [hi]; exact inTable_val i
  rw [truncateRule, lockFirst_unlocked hl, hrun]
  exact if_neg (Nat.not_lt.mpr hb)

end Setbay

/-- Settles O31. -/
theorem setbayWritesBay : Obligations.SetbayWritesBay := by
  refine ⟨fun p f rest s q hx hl => ⟨fun h hq => h.answers hx (setbayRule_badForm _ hl hq),
    fun h hq => h.answers hx (truncateRule_badForm _ hl hq)⟩, fun p f rest s q i hx hi hb hl => ⟨?_, fun h => ?_⟩⟩
  · intro shape access inService entryCheck condition zone h hshape ha ho hm he hs hc hcond hzone hceil
    have haccess : accessSetOf q.auto q.operator q.maintenance q.emergency = some access := by
      rw [ha, ho, hm, he]; exact accessSetOf_codes access
    have hrule := setbayRule_of_bay (originOf p f.station) hl hi hb
      (bayOf_code (shapeOf_code hshape) haccess hs hc hcond hzone hceil)
    refine ⟨fun hd => h.answers hx ?_, fun hd hlen => h.answers hx ?_, fun hd hlen => h.answers hx ?_,
      fun hd hlen => h.answers hx ?_⟩ <;> rw [hrule] <;> simp only [hd, Bool.not_false, Bool.not_true, if_true]
    · rfl
    · simp only [Bool.false_eq_true, if_false, if_pos hlen]; rfl
    · simp only [Bool.false_eq_true, if_false, if_neg (Nat.not_lt.mpr hlen.le), putBay, if_pos hlen, hd]; rfl
    · simp only [Bool.false_eq_true, if_false, hlen, Nat.lt_irrefl, putBay, hd]; rfl
  · have hrule := truncateRule_of_run (originOf p f.station) hl hi hb
    refine ⟨fun hd => h.answers hx ?_, fun hd hlen => h.answers hx ?_, fun hd hlen => h.answers hx ?_⟩ <;> rw [hrule] <;>
      simp only [hd, Bool.not_false, Bool.not_true, if_true]
    · rfl
    · simp only [Bool.false_eq_true, if_false, if_pos hlen]; rfl
    · simp only [Bool.false_eq_true, if_false, if_neg (Nat.not_le.mpr hlen)]; rfl

end Sys2Proof.Machine
end

section
namespace Sys2Proof.Machine

/-! ## service and ceiling -/

section BayRules

variable {r : Records} {W : World} {F G : Fleet}

/-- Two fleets are equal when all their records are. -/
theorem Fleet.eq_of_records (hc : G.cars = F.cars) (hs : ∀ i : SlotId, G.slots[i] = F.slots[i])
    (ho : G.occupancy = F.occupancy) (hh : G.holders = F.holders) (hn : G.notices = F.notices) : G = F := by
  have hslots : G.slots = F.slots := Vector.ext fun i hi => hs ⟨i, hi⟩
  cases F; cases G
  simp only at hc hslots ho hh hn
  subst hc hslots ho hh hn
  rfl

/-- A change that the warrant of the slot does not show changes nothing. -/
theorem Fleet.modWarrant_eq_self {i : SlotId} {f : Warrant → Warrant}
    (h : (F.slots[i]).warrant.map f = (F.slots[i]).warrant) : F.modWarrant i f = F := by
  refine Fleet.eq_of_records rfl (fun j => ?_) rfl rfl rfl
  rw [Fleet.modWarrant_get]
  split
  · rename_i e; subst e; rw [h]
  · rfl

/-- One change of the warrant of each slot in turn is the change of all of them at once. -/
theorem Fleet.foldl_modWarrant (f : Warrant → Warrant) {is : List SlotId} (hn : is.Nodup) (F : Fleet) :
    let G := is.foldl (fun G i => G.modWarrant i f) F
    G.cars = F.cars ∧ G.occupancy = F.occupancy ∧ G.holders = F.holders ∧ G.notices = F.notices ∧
      ∀ j : SlotId, G.slots[j] =
        if j ∈ is then { F.slots[j] with warrant := (F.slots[j]).warrant.map f } else F.slots[j] := by
  induction is generalizing F with
  | nil => exact ⟨rfl, rfl, rfl, rfl, fun _ => rfl⟩
  | cons i is ih =>
    obtain ⟨hi, hn⟩ := List.nodup_cons.mp hn
    obtain ⟨hc, ho, hh, hnn, hs⟩ := ih hn (F.modWarrant i f)
    refine ⟨hc, ho, hh, hnn, fun j => (hs j).trans ?_⟩
    rw [Fleet.modWarrant_get]
    by_cases hj : j = i
    · subst hj; simp [hi]
    · simp [hj]

theorem Fleet.foldl_modWarrant_all (f : Warrant → Warrant) (F : Fleet) :
    (List.finRange 48).foldl (fun G i => G.modWarrant i f) F =
      { F with slots := F.slots.map (fun x => { x with warrant := x.warrant.map f }) } := by
  obtain ⟨hc, ho, hh, hn, hs⟩ := Fleet.foldl_modWarrant f (List.nodup_finRange 48) F
  refine Fleet.eq_of_records hc (fun i => (hs i).trans ?_) ho hh hn
  rw [if_pos (List.mem_finRange i)]
  simp

/-- A ceiling is read off the carriages and the warrant alone. -/
theorem fullCeiling_congr (h : G.cars = F.cars) (w : Warrant) : fullCeiling W G w = fullCeiling W F w := by
  simp only [fullCeiling, leastCeiling, spanUnits, runOf, h]

/-- Whether a warrant touches a bay is read off the carriages and the warrant alone. -/
theorem touchesBay_congr (h : G.cars = F.cars) (run : RunId) (b : Nat) (w : Warrant) :
    touchesBay W G run b w = touchesBay W F run b w := by
  simp only [touchesBay, spanUnits, runOf, h]

/-- The warrant `w` with its ceiling computed afresh when its span touches bay `b` of the run (R17). -/
def ceiledAfresh (W : World) (F : Fleet) (run : RunId) (b : Nat) (w : Warrant) : Warrant :=
  if touchesBay W F run b w then { w with ceiling := fullCeiling W F w } else w

theorem ceiledAfresh_eq (W : World) (F : Fleet) (run : RunId) (b : Nat) (w : Warrant) : ceiledAfresh W F run b w =
    if (F.cars[w.carriage]).cfg.run = run ∧ ∃ u ∈ spanUnits W F w, u.bay = b then
      { w with ceiling := fullCeiling W F w }
    else w := by
  simp [ceiledAfresh, touchesBay]

/-- A recomputation gives every warrant whose span touches the bay its ceiling afresh and changes nothing else. -/
theorem recomputeCeilings_eq (W : World) (run : RunId) (b : Nat) (F : Fleet) :
    recomputeCeilings W run b F =
      { F with slots := F.slots.map (fun x => { x with warrant := x.warrant.map (ceiledAfresh W F run b) }) } := by
  rw [← Fleet.foldl_modWarrant_all]
  unfold recomputeCeilings
  have key : ∀ (is : List SlotId) (G : Fleet), G.cars = F.cars →
      is.foldl (fun G i => match (G.slots[i]).warrant with
        | some w => if touchesBay W G run b w then receiling W G i else G
        | none => G) G = is.foldl (fun G i => G.modWarrant i (ceiledAfresh W F run b)) G := by
    intro is
    induction is with
    | nil => intro G _; rfl
    | cons i is ih =>
      intro G hG
      simp only [List.foldl_cons]
      have hstep : (match (G.slots[i]).warrant with
        | some w => if touchesBay W G run b w then receiling W G i else G
        | none => G) = G.modWarrant i (ceiledAfresh W F run b) := by
        cases hw : (G.slots[i]).warrant with
        | none => exact (Fleet.modWarrant_eq_self (by rw [hw]; rfl)).symm
        | some w =>
          simp only [touchesBay_congr hG]
          split
          · rename_i ht
            simp only [receiling, hw, Fleet.modWarrant, Option.map_some, ceiledAfresh, if_pos ht, fullCeiling_congr hG]
          · rename_i ht
            exact (Fleet.modWarrant_eq_self (by rw [hw, Option.map_some, ceiledAfresh, if_neg ht])).symm
      rw [hstep]
      exact ih _ hG
  exact key _ F rfl

/-- A run and bay number beyond the numbers are refused. -/
theorem withBay_badForm {run bay : Nat} (h : 7 < run ∨ 47 < bay) (k : RunId → Bay → Records × Answer) :
    withBay r run bay k = (r, plain .badForm) := by
  unfold withBay
  split
  · rfl
  · rename_i i hi
    rw [if_pos]
    refine h.resolve_left fun e => ?_
    rw [inTable_of_ge (by omega)] at hi; cases hi

/-- A bay that is not there is in use by nobody's edit. -/
theorem withBay_inUse {i : RunId} {b : Nat} (hb : b ≤ 47)
    (h : (r.world.map.runs[i]).defined = false ∨ (r.world.map.runs[i]).bays.length ≤ b)
    (k : RunId → Bay → Records × Answer) : withBay r i.val b k = (r, plain .inUse) := by
  have hnone : (if (r.world.map.runs[i]).defined then (r.world.map.runs[i]).bay b else none) = none := by
    rcases h with h | h
    · simp only [h, Bool.false_eq_true, if_false]
    · simp only [Run.bay, List.getElem?_eq_none h, ite_self]
  rw [withBay, inTable_val]
  simp only [if_neg (Nat.not_lt.mpr hb), hnone]

theorem withBay_of_bay {i : RunId} {b : Nat} {bay : Bay} (hb : b ≤ 47) (hd : (r.world.map.runs[i]).defined = true)
    (hbay : (r.world.map.runs[i]).bays[b]? = some bay) (k : RunId → Bay → Records × Answer) :
    withBay r i.val b k = k i bay := by
  have hsome : (if (r.world.map.runs[i]).defined then (r.world.map.runs[i]).bay b else none) = some bay := by
    simp only [hd, if_true, Run.bay, hbay]
  rw [withBay, inTable_val]
  simp only [if_neg (Nat.not_lt.mpr hb), hsome]

/-- A field of a `service` out of its range is refused. -/
theorem serviceRule_badForm {q : TripleBody} (h : 7 < q.fst ∨ 47 < q.snd ∨ 1 < q.thd) :
    serviceRule .assured q r = (r, plain .badForm) := by
  rw [serviceRule, assuredOnly_assured]
  split
  · rfl
  · rename_i v hv
    refine withBay_badForm ((or_assoc.mpr h).resolve_right fun e => ?_) _
    rw [(yesNo_eq_none_iff _).mpr e] at hv; cases hv

/-- A field of a `ceiling` out of its range is refused. -/
theorem ceilingRule_badForm {q : CeilingBody} (h : 7 < q.run ∨ 47 < q.bay ∨ 1000 < q.ceiling) :
    ceilingRule .assured q r = (r, plain .badForm) := by
  rw [ceilingRule, assuredOnly_assured]
  split
  · rfl
  · rename_i hc
    exact withBay_badForm ((or_assoc.mpr h).resolve_right hc) _

end BayRules

/-- Settles O32: what the bay requests answer, branch by branch. -/
theorem serviceAndCeilingWriteBay : Obligations.ServiceAndCeilingWriteBay := by
  refine ⟨fun f rest s => ⟨fun q h hx hq => h.answers hx (serviceRule_badForm hq),
    fun q h hx hq => h.answers hx (ceilingRule_badForm hq)⟩, fun f rest s i b hb => ⟨?_, ?_⟩⟩
  · intro q v h hx hi hsnd hv
    have hrule : serviceRule .assured q s.records = withBay s.records i.val b fun i bay =>
        let r1 := s.records.withMap (s.records.world.map.modBay i b (fun x => { x with inService := v }))
        if s.records.world.map.locked && bay.inService && !v then
          ({ r1 with fleet := cutToUnit r1.world (serviceDemand i b) r1.fleet }, plain .done)
        else (r1, plain .done) := by
      rw [serviceRule, assuredOnly_assured, hv, yesNo_code, hi, hsnd]
    refine ⟨fun hno => h.answers hx (hrule.trans (withBay_inUse hb hno _)), fun bay hd hbay => ⟨fun hkeep => ?_,
      fun hl hin hout => ?_⟩⟩ <;> refine h.answers hx ((hrule.trans (withBay_of_bay hb hd hbay _)).trans ?_)
    · exact if_neg (by rcases hkeep with e | e | e <;> simp [e])
    · exact if_pos (by simp [hl, hin, hout])
  · intro q h hx hi hbay hc
    have hrule : ceilingRule .assured q s.records = withBay s.records i.val b fun i bay =>
        let r1 := s.records.withMap (s.records.world.map.modBay i b (fun x => { x with ceiling := q.ceiling }))
        if s.records.world.map.locked && bay.ceiling != q.ceiling then
          ({ r1 with fleet := recomputeCeilings r1.world i b r1.fleet }, plain .done)
        else (r1, plain .done) := by
      rw [ceilingRule, assuredOnly_assured, if_neg (Nat.not_lt.mpr hc), hi, hbay]
    refine ⟨fun hno => h.answers hx (hrule.trans (withBay_inUse hb hno _)), fun bay hd hbay => ⟨fun hkeep => ?_,
      fun hl hne => ?_⟩⟩ <;> refine h.answers hx ((hrule.trans (withBay_of_bay hb hd hbay _)).trans ?_)
    · exact if_neg (by rcases hkeep with e | e <;> simp [e])
    · refine (if_pos (by simp [hl, hne])).trans ?_
      rw [recomputeCeilings_eq]
      exact congrArg (fun g => (Records.withFleet _ { s.records.fleet with
        slots := s.records.fleet.slots.map (fun x => { x with warrant := x.warrant.map g }) }, plain .done))
        (funext fun w => ceiledAfresh_eq _ _ _ _ w)

end Sys2Proof.Machine
end

section
namespace Sys2Proof.Machine

/-! ## unlock and marks -/

section UnlockAndMarks

variable {r : Records}

theorem anyLive_eq_true_iff (F : Fleet) : F.anyLive = true ↔ ∃ i : SlotId, (F.slots[i]).warrant ≠ none := by
  rw [← Bool.not_eq_false, anyLive_eq_false_iff]
  exact not_forall

/-- A yes-or-no value as one byte. -/
theorem be_bit (v : Bool) : be 1 (bit v) = [if v then 1 else 0] := by cases v <;> rfl

/-- The list that `marks` answers, byte by byte (R22). -/
theorem markList_eq (run : Run) : markList run = if run.defined then
    run.bays.flatMap (fun b => [if b.traversed then 1 else 0, if b.stoppedIn then 1 else 0]) else [] := by
  simp only [markList, be_bit, List.singleton_append]

/-- A run number or a mode beyond its values is refused. -/
theorem marksRule_badForm (o : Origin) {q : PairBody} (h : 7 < q.fst ∨ 1 < q.snd) :
    marksRule o q r = (r, plain .badForm) := by
  unfold marksRule
  split
  · rename_i i take hi ht
    rcases h with h | h
    · rw [inTable_of_ge (by omega)] at hi; cases hi
    · rw [(yesNo_eq_none_iff _).mpr h] at ht; cases ht
  · rfl

theorem marksRule_of_run (o : Origin) {q : PairBody} {i : RunId} {take : Bool} (hi : q.fst = i.val)
    (ht : q.snd = (if take then 1 else 0)) : marksRule o q r =
      (if take then r.withMap (r.world.map.setRun i (clearMarks r.world.map.runs[i])) else r,
        { status := .done, body := markList r.world.map.runs[i] }) := by
  have hrun : inTable 8 q.fst = some i := by rw [hi]; exact inTable_val i
  have htake : yesNo q.snd = some take := by rw [ht]; exact yesNo_code take
  rw [marksRule, hrun, htake]
  cases take <;> rfl

end UnlockAndMarks

/-- Settles O35. -/
theorem unlockNeedsNoLiveWarrant : Obligations.UnlockNeedsNoLiveWarrant := by
  intro f rest s h
  refine ⟨fun hlive => h.answers (x := ()) rfl (if_pos ((anyLive_eq_true_iff _).mpr hlive)), fun hnone hl => ?_,
    fun hnone hl => ?_⟩
  all_goals
    have hlive : ¬s.records.fleet.anyLive = true := by rw [Bool.not_eq_true]; exact (anyLive_eq_false_iff _).mpr hnone
    refine h.answers (x := ()) rfl ((if_neg hlive).trans ?_)
  · exact if_pos hl
  · exact if_neg (by rw [hl]; exact Bool.false_ne_true)

/-- Settles O36. -/
theorem marksReadAndTake : Obligations.MarksReadAndTake := by
  intro p f rest s q h hx
  refine ⟨fun hq => h.answers hx (marksRule_badForm _ hq), fun i hi => ?_⟩
  simp only [← markList_eq]
  exact ⟨fun h0 => h.answers hx (marksRule_of_run _ (take := false) hi h0),
    fun h1 => h.answers hx (marksRule_of_run _ (take := true) hi h1)⟩

end Sys2Proof.Machine
end

section
namespace Sys2Proof.Machine

/-! ## The least fault of a search -/

section Least

variable {α : Type} {R : α → α → Prop}

/-- The search `g` finds a fault exactly when one of `P` stands, and then one that ranks before every other. -/
structure Finds (R : α → α → Prop) (g : Option α) (P : α → Prop) : Prop where
  nothing : g = none → ∀ x, ¬P x
  least : ∀ e, g = some e → P e ∧ ∀ x, P x → x = e ∨ R e x

/-- One item that fails a check or does not. -/
theorem Finds.ite {p : Prop} [Decidable p] (y : α) :
    Finds R (if p then some y else none) (fun x => x = y ∧ p) where
  nothing h x hx := by simp [hx.2] at h
  least e h := by
    split at h
    · cases h
      exact ⟨⟨rfl, ‹_›⟩, fun x hx => .inl hx.1⟩
    · cases h

theorem Finds.congr {g : Option α} {P Q : α → Prop} (h : Finds R g P) (hpq : ∀ x, P x ↔ Q x) : Finds R g Q := by
  rwa [show Q = P from funext fun x => propext (hpq x).symm]

/-- One check after another, when every fault of the first ranks before each of the second. -/
theorem Finds.or {g g' : Option α} {P P' : α → Prop} (h : Finds R g P) (h' : Finds R g' P')
    (hr : ∀ x y, P x → P' y → R x y) : Finds R (g.or g') (fun x => P x ∨ P' x) where
  nothing hn x := by
    rw [Option.or_eq_none_iff] at hn
    exact not_or.mpr ⟨h.nothing hn.1 x, h'.nothing hn.2 x⟩
  least e he := by
    cases hg : g with
    | some e' =>
      rw [hg, Option.some_or, Option.some.injEq] at he
      subst he
      obtain ⟨hp, hall⟩ := h.least e' hg
      exact ⟨.inl hp, fun x hx => hx.elim (hall x) fun hx => .inr (hr _ _ hp hx)⟩
    | none =>
      rw [hg, Option.none_or] at he
      obtain ⟨hp, hall⟩ := h'.least e he
      exact ⟨.inr hp, fun x hx => hall x (hx.resolve_left (h.nothing hg x))⟩

/-- A search of a list whose earlier members' faults rank before the later ones'. -/
theorem Finds.findSome {β : Type} {f : β → Option α} {P : β → α → Prop} (l : List β) (h : ∀ b ∈ l, Finds R (f b) (P b))
    (hr : l.Pairwise fun a b => ∀ x y, P a x → P b y → R x y) :
    Finds R (l.findSome? f) (fun x => ∃ b ∈ l, P b x) := by
  induction l with
  | nil => exact ⟨fun _ x ⟨b, hb, _⟩ => absurd hb List.not_mem_nil, nofun⟩
  | cons b bs ih =>
    obtain ⟨hb, hbs⟩ := List.pairwise_cons.mp hr
    have hrest := ih (fun c hc => h c (List.mem_cons_of_mem _ hc)) hbs
    have key := (h b List.mem_cons_self).or hrest fun x y hx ⟨c, hc, hy⟩ => hb c hc x y hx hy
    have e : (b :: bs).findSome? f = (f b).or (bs.findSome? f) := by
      rw [List.findSome?_cons]
      cases f b <;> rfl
    rw [e]
    exact key.congr fun x => by simp

/-- A search through the numbers below `n`. -/
theorem Finds.numbers {n : Nat} {f : Fin n → Option α} {P : Fin n → α → Prop} (h : ∀ i, Finds R (f i) (P i))
    (hr : ∀ i j, i < j → ∀ x y, P i x → P j y → R x y) :
    Finds R ((List.finRange n).findSome? f) (fun x => ∃ i, P i x) :=
  (Finds.findSome (List.finRange n) (fun i _ => h i) ((List.pairwise_lt_finRange n).imp fun {i j} hij => hr i j hij)).congr
    fun x => by simp

end Least

/-! ## The walk up a zone's chain (R19, codes 3 to 5) -/

section Chains

variable {m : TrackMap} {zone : ZoneId}

/-- No zone twice, and each defined. -/
def SoundChain (m : TrackMap) (zs : List ZoneId) : Prop := zs.Nodup ∧ ∀ y ∈ zs, (m.zones[y]).defined = true

/-- A chain taken one zone further is sound exactly when that zone is defined and new. -/
theorem soundChain_step (seen rest : List ZoneId) (up : ZoneId) :
    SoundChain m (seen ++ up :: rest) ↔
      (m.zones[up]).defined = true ∧ up ∉ seen ∧ SoundChain m ((up :: seen) ++ rest) := by
  have hp : (seen ++ up :: rest).Perm ((up :: seen) ++ rest) := List.perm_middle
  rw [SoundChain, SoundChain, hp.nodup_iff]
  constructor
  · rintro ⟨hn, hd⟩
    refine ⟨hd up (by simp), fun h => ?_, hn, fun y hy => hd y (hp.mem_iff.mpr hy)⟩
    exact (List.nodup_cons.mp hn).1 (List.mem_append_left _ h)
  · rintro ⟨-, -, hn, hd⟩
    exact ⟨hn, fun y hy => hd y (hp.mem_iff.mp hy)⟩

theorem SoundChain.left {l l' : List ZoneId} (h : SoundChain m (l ++ l')) : SoundChain m l :=
  ⟨(List.nodup_append.mp h.1).1, fun y hy => h.2 y (List.mem_append_left _ hy)⟩

/-- A fault of codes 3 to 5 that stands on the chain of `zone` whose zones `seen` are met, `cur` the last of them, when
`rest` of at most `fuel` zones follow (R19). -/
def ChainFault (m : TrackMap) (zone : ZoneId) (fuel : Nat) (seen : List ZoneId) (cur : ZoneId) (rest : List ZoneId)
    (x : MapFault) : Prop :=
  (∃ (j : Nat) (y up : ZoneId), x = { code := 3, first := zone.val, second := some y.val } ∧
      (cur :: rest)[j]? = some y ∧ rest[j]? = some up ∧ (m.zones[up]).defined = false ∧
      SoundChain m (seen ++ rest.take j)) ∨
    (x = { code := 4, first := zone.val, second := none } ∧ rest.length = fuel ∧ SoundChain m (seen ++ rest)) ∨
    ∃ (j : Nat) (up : ZoneId), x = { code := 5, first := zone.val, second := none } ∧ rest[j]? = some up ∧
      up ∈ seen ++ rest.take j ∧ SoundChain m (seen ++ rest.take j)

/-- Where the next zone is undefined, code 3 alone stands. -/
theorem chainFault_of_undefined {fuel : Nat} {seen : List ZoneId} {cur up : ZoneId} {rest : List ZoneId} {x : MapFault}
    (hs : SoundChain m seen) (hd : (m.zones[up]).defined = false) :
    ChainFault m zone fuel seen cur (up :: rest) x ↔ x = { code := 3, first := zone.val, second := some cur.val } := by
  have hbad : ∀ l : List ZoneId, ¬SoundChain m (seen ++ up :: l) := fun l h => by
    rw [soundChain_step, hd] at h; cases h.1
  constructor
  · rintro (⟨j, y, u, hx, hy, -, -, hso⟩ | ⟨-, -, hso⟩ | ⟨j, u, -, hu, hmem, hso⟩)
    · cases j with
      | zero => simp only [List.getElem?_cons_zero, Option.some.injEq] at hy; rw [hx, hy]
      | succ j => exact absurd hso (hbad _)
    · exact absurd hso (hbad _)
    · cases j with
      | zero =>
        simp only [List.getElem?_cons_zero, Option.some.injEq] at hu
        subst hu
        rw [hs.2 up (by simpa using hmem)] at hd; cases hd
      | succ j => exact absurd hso (hbad _)
  · rintro rfl
    exact .inl ⟨0, cur, up, rfl, rfl, rfl, hd, by simpa using hs⟩

/-- Where the next zone has been met, code 5 alone stands. -/
theorem chainFault_of_met {fuel : Nat} {seen : List ZoneId} {cur up : ZoneId} {rest : List ZoneId} {x : MapFault}
    (hs : SoundChain m seen) (hd : (m.zones[up]).defined = true) (hm : up ∈ seen) :
    ChainFault m zone fuel seen cur (up :: rest) x ↔ x = { code := 5, first := zone.val, second := none } := by
  have hbad : ∀ l : List ZoneId, ¬SoundChain m (seen ++ up :: l) := fun l h => by
    rw [soundChain_step] at h; exact h.2.1 hm
  constructor
  · rintro (⟨j, y, u, -, -, hu, hnd, hso⟩ | ⟨-, -, hso⟩ | ⟨j, u, hx, -, -, hso⟩)
    · cases j with
      | zero =>
        simp only [List.getElem?_cons_zero, Option.some.injEq] at hu
        subst hu
        rw [hd] at hnd; cases hnd
      | succ j => exact absurd hso (hbad _)
    · exact absurd hso (hbad _)
    · exact hx
  · rintro rfl
    exact .inr (.inr ⟨0, up, rfl, rfl, by simpa using hm, by simpa using hs⟩)

/-- Past a zone that is defined and new, the same faults stand as from there on. -/
theorem chainFault_step {fuel : Nat} {seen : List ZoneId} {cur up : ZoneId} {rest : List ZoneId} {x : MapFault}
    (hd : (m.zones[up]).defined = true) (hm : up ∉ seen) :
    ChainFault m zone (fuel + 1) seen cur (up :: rest) x ↔ ChainFault m zone fuel (up :: seen) up rest x := by
  have hsound : ∀ l, SoundChain m (seen ++ up :: l) ↔ SoundChain m ((up :: seen) ++ l) := fun l => by
    rw [soundChain_step]; exact and_iff_right hd |>.trans (and_iff_right hm)
  have hmem : ∀ (l : List ZoneId) (u : ZoneId), u ∈ seen ++ up :: l ↔ u ∈ (up :: seen) ++ l := fun l u =>
    (List.perm_middle (a := up) (l₁ := seen) (l₂ := l)).mem_iff
  constructor
  · rintro (⟨j, y, u, hx, hy, hu, hnd, hso⟩ | ⟨hx, hl, hso⟩ | ⟨j, u, hx, hu, hin, hso⟩)
    · cases j with
      | zero =>
        simp only [List.getElem?_cons_zero, Option.some.injEq] at hu
        subst hu
        rw [hd] at hnd; cases hnd
      | succ j => exact .inl ⟨j, y, u, hx, by simpa using hy, by simpa using hu, hnd, (hsound _).mp hso⟩
    · exact .inr (.inl ⟨hx, by simpa using hl, (hsound _).mp hso⟩)
    · cases j with
      | zero =>
        simp only [List.getElem?_cons_zero, Option.some.injEq] at hu
        subst hu
        exact absurd (by simpa using hin) hm
      | succ j => exact .inr (.inr ⟨j, u, hx, by simpa using hu, (hmem _ _).mp hin, (hsound _).mp hso⟩)
  · rintro (⟨j, y, u, hx, hy, hu, hnd, hso⟩ | ⟨hx, hl, hso⟩ | ⟨j, u, hx, hu, hin, hso⟩)
    · exact .inl ⟨j + 1, y, u, hx, by simpa using hy, by simpa using hu, hnd, (hsound _).mpr hso⟩
    · exact .inr (.inl ⟨hx, by simpa using hl, (hsound _).mpr hso⟩)
    · exact .inr (.inr ⟨j + 1, u, hx, by simpa using hu, (hmem _ _).mpr hin, (hsound _).mpr hso⟩)

theorem chainFrom_some (zones : Vector Zone 32) (fuel : Nat) (z : ZoneId) :
    chainFrom zones (fuel + 1) (some z) = z :: chainFrom zones fuel (zones[z]).parent := rfl

/-- One more zone, defined and new, leaves a chain sound. -/
theorem SoundChain.cons {seen : List ZoneId} {up : ZoneId} (hs : SoundChain m seen) (hd : (m.zones[up]).defined = true)
    (hm : up ∉ seen) : SoundChain m (up :: seen) :=
  ⟨List.nodup_cons.mpr ⟨hm, hs.1⟩, fun y hy => (List.mem_cons.mp hy).elim (fun e => by rw [e]; exact hd) (hs.2 y)⟩

/-- The walk finds nothing exactly when the rest of the chain is sound and short enough. -/
theorem chainWalk_eq_none_iff (fuel : Nat) (seen : List ZoneId) (cur : ZoneId) (hf : 0 < fuel)
    (hs : SoundChain m seen) : chainWalk m zone fuel seen cur = none ↔
      (chainFrom m.zones fuel (m.zones[cur]).parent).length < fuel ∧
        SoundChain m (seen ++ chainFrom m.zones fuel (m.zones[cur]).parent) := by
  fun_induction chainWalk m zone fuel seen cur with
  | case1 => exact absurd hf (Nat.lt_irrefl 0)
  | case2 fuel seen cur hp =>
    rw [hp]
    simp [chainFrom, hs]
  | case3 fuel seen cur up hp hd =>
    rw [hp, chainFrom_some, soundChain_step]
    exact iff_of_false nofun fun h => by rw [h.2.1] at hd; cases hd
  | case4 fuel seen cur up hp hd hm =>
    rw [hp, chainFrom_some, soundChain_step]
    exact iff_of_false nofun fun h => h.2.2.1 hm
  | case5 seen cur up hp hd hm =>
    rw [hp, chainFrom_some]
    exact iff_of_false nofun fun h => absurd h.1 (by simp)
  | case6 fuel seen cur up hp hd hm h0 ih =>
    have hd : (m.zones[up]).defined = true := by simpa using hd
    rw [hp, chainFrom_some, soundChain_step, ih (Nat.pos_of_ne_zero h0) (hs.cons hd hm), List.length_cons,
      Nat.add_lt_add_iff_right]
    exact and_congr_right' ⟨fun h => ⟨hd, hm, h⟩, fun h => h.2.2⟩

/-- The walk finds the one fault that stands, when one does. -/
theorem chainWalk_eq_some_iff (fuel : Nat) (seen : List ZoneId) (cur : ZoneId) (hf : 0 < fuel) (hs : SoundChain m seen)
    (x : MapFault) : chainWalk m zone fuel seen cur = some x ↔
      ChainFault m zone fuel seen cur (chainFrom m.zones fuel (m.zones[cur]).parent) x := by
  fun_induction chainWalk m zone fuel seen cur with
  | case1 => exact absurd hf (Nat.lt_irrefl 0)
  | case2 fuel seen cur hp =>
    rw [hp]
    simp [chainFrom, ChainFault]
  | case3 fuel seen cur up hp hd =>
    rw [hp, chainFrom_some, chainFault_of_undefined hs (by simpa using hd), Option.some.injEq, eq_comm]
  | case4 fuel seen cur up hp hd hm =>
    rw [hp, chainFrom_some, chainFault_of_met hs (by simpa using hd) hm, Option.some.injEq, eq_comm]
  | case5 seen cur up hp hd hm =>
    have hd : (m.zones[up]).defined = true := by simpa using hd
    rw [hp, chainFrom_some, chainFault_step hd hm, Option.some.injEq, eq_comm]
    simp [chainFrom, ChainFault, hs.cons hd hm]
  | case6 fuel seen cur up hp hd hm h0 ih =>
    have hd : (m.zones[up]).defined = true := by simpa using hd
    rw [hp, chainFrom_some, chainFault_step hd hm]
    exact ih (Nat.pos_of_ne_zero h0) (hs.cons hd hm)

end Chains

end Sys2Proof.Machine
end

section
namespace Sys2Proof.Machine

/-! ## The order of faults (R19) -/

/-- The check a fault belongs to: codes 3, 4 and 5 are one walk. -/
def MapFault.check (x : MapFault) : Nat := if x.code = 4 ∨ x.code = 5 then 3 else x.code

/-- Fault `e` is met before fault `x`: by an earlier check, or within one by a lower item. -/
def MapFault.before (e x : MapFault) : Prop :=
  e.check < x.check ∨
    (e.check = x.check ∧ (e.first < x.first ∨ (e.first = x.first ∧ e.second.getD 0 < x.second.getD 0)))

theorem Finds.of_iff {α : Type} {R : α → α → Prop} {g : Option α} {P : α → Prop} (h : ∀ x, g = some x ↔ P x) :
    Finds R g P where
  nothing hn x hx := by rw [← h, hn] at hx; cases hx
  least e he := ⟨(h e).mp he, fun x hx => by rw [← h, he] at hx; exact .inl (Option.some.inj hx).symm⟩

/-- A search for faults of check `k`. -/
structure FindsAt (k : Nat) (g : Option MapFault) (P : MapFault → Prop) : Prop extends Finds MapFault.before g P where
  check : ∀ x, P x → x.check = k

/-- A search for faults of the checks from `k` on. -/
structure FindsFrom (k : Nat) (g : Option MapFault) (P : MapFault → Prop) : Prop extends Finds MapFault.before g P where
  check : ∀ x, P x → k ≤ x.check

/-- A check over the numbers below `n`, whose faults carry the check's code and the number. -/
theorem FindsAt.of_numbers {n k : Nat} {f : Fin n → Option MapFault} {P : Fin n → MapFault → Prop}
    (h : ∀ i, Finds MapFault.before (f i) (P i)) (hp : ∀ i x, P i x → x.check = k ∧ x.first = i.val) :
    FindsAt k ((List.finRange n).findSome? f) (fun x => ∃ i, P i x) := by
  refine ⟨.numbers h fun i j hij x y hx hy => .inr ?_, fun x ⟨i, hx⟩ => (hp i x hx).1⟩
  obtain ⟨hx, hx'⟩ := hp i x hx
  obtain ⟨hy, hy'⟩ := hp j y hy
  exact ⟨hx.trans hy.symm, .inl (by rw [hx', hy']; exact hij)⟩

/-- A check, and the later ones when it finds nothing. -/
theorem FindsAt.then {k l : Nat} {g g' : Option MapFault} {P P' : MapFault → Prop} (h : FindsAt k g P)
    (h' : FindsFrom l g' P') (hkl : k < l) : FindsFrom k (g.or g') (fun x => P x ∨ P' x) :=
  ⟨h.toFinds.or h'.toFinds fun x y hx hy => .inl (by rw [h.check x hx]; exact hkl.trans_le (h'.check y hy)),
    fun x hx => hx.elim (fun hx => (h.check x hx).ge) fun hx => hkl.le.trans (h'.check x hx)⟩

theorem FindsAt.from {k : Nat} {g : Option MapFault} {P : MapFault → Prop} (h : FindsAt k g P) : FindsFrom k g P :=
  ⟨h.toFinds, fun x hx => (h.check x hx).ge⟩

section Checks

variable (W : World) (F : Fleet) (m : TrackMap)

/-- The zone fault `x` stands on the chain of `z` (R19, codes 3 to 5). -/
def ZoneFaultAt (z : ZoneId) (x : MapFault) : Prop :=
  ChainFault m z 4 [z] z (chainFrom m.zones 4 (m.zones[z]).parent) x

theorem zoneFault_eq_some_iff (z : ZoneId) (x : MapFault) : zoneFault m z = some x ↔ ZoneFaultAt m z x := by
  unfold zoneFault
  split
  · rename_i hd
    exact chainWalk_eq_some_iff 4 [z] z (by decide) ⟨by simp, fun y hy => by rw [List.mem_singleton.mp hy]; exact hd⟩ x
  · rename_i hd
    refine iff_of_false nofun ?_
    have hbad : ∀ l, ¬SoundChain m ([z] ++ l) := fun l h => hd (h.2 z (by simp))
    rintro (⟨j, y, u, -, -, -, -, h⟩ | ⟨-, -, h⟩ | ⟨j, u, -, -, -, h⟩)
    all_goals exact hbad _ h

theorem zoneFault_eq_none_iff (z : ZoneId) : zoneFault m z = none ↔ ((m.zones[z]).defined = true →
    (chainFrom m.zones 5 (some z)).length ≤ 4 ∧ SoundChain m (chainFrom m.zones 5 (some z))) := by
  unfold zoneFault
  split
  · rename_i hd
    rw [chainWalk_eq_none_iff 4 [z] z (by decide)
      ⟨by simp, fun y hy => by rw [List.mem_singleton.mp hy]; exact hd⟩, chainFrom_some]
    simp only [hd, List.length_cons, true_imp_iff]
    rfl
  · rename_i hd
    exact iff_of_true rfl fun h => absurd h hd

/-- A bay whose zone is undefined, from bay `b` on (R19, code 6). -/
def BayFaultAt (i : RunId) (b : Nat) (bays : List Bay) (x : MapFault) : Prop :=
  ∃ (k : Nat) (bay : Bay) (z : ZoneId), x = { code := 6, first := i.val, second := some (b + k) } ∧
    bays[k]? = some bay ∧ bay.zone = some z ∧ (m.zones[z]).defined = false

/-- A bay in no zone, or in a defined one, adds no fault. -/
theorem bayFaultAt_cons (i : RunId) (b : Nat) (bay : Bay) (bays : List Bay) (x : MapFault)
    (h : ∀ z, bay.zone = some z → (m.zones[z]).defined = true) :
    BayFaultAt m i b (bay :: bays) x ↔ BayFaultAt m i (b + 1) bays x := by
  constructor
  · rintro ⟨k, bay', z, hx, hb, hz, hd⟩
    cases k with
    | zero =>
      cases (Option.some.inj hb)
      rw [h z hz] at hd; cases hd
    | succ k => exact ⟨k, bay', z, by rw [hx, Nat.add_right_comm, Nat.add_assoc], hb, hz, hd⟩
  · rintro ⟨k, bay', z, hx, hb, hz, hd⟩
    exact ⟨k + 1, bay', z, by rw [hx, Nat.add_right_comm, Nat.add_assoc], hb, hz, hd⟩

theorem bayFaultFrom_finds (i : RunId) (b : Nat) (bays : List Bay) :
    Finds MapFault.before (bayFaultFrom m i b bays) (BayFaultAt m i b bays) := by
  induction bays generalizing b with
  | nil => exact ⟨fun _ x ⟨k, bay, z, _, hb, _⟩ => absurd hb (by simp), nofun⟩
  | cons bay bays ih =>
    unfold bayFaultFrom
    split
    · rename_i z hz
      split
      · rename_i hd
        exact (ih (b + 1)).congr fun x => (bayFaultAt_cons m i b bay bays x fun y hy => by
          rw [hz, Option.some.injEq] at hy; rw [← hy]; exact hd).symm
      · rename_i hd
        refine ⟨nofun, fun e he => ?_⟩
        cases he
        refine ⟨⟨0, bay, z, rfl, rfl, hz, by simpa using hd⟩, ?_⟩
        rintro x ⟨k, bay', y, hx, -⟩
        subst hx
        cases k with
        | zero => exact .inl rfl
        | succ k => exact .inr (.inr ⟨rfl, .inr ⟨rfl, by simp⟩⟩)
    · rename_i hz
      exact (ih (b + 1)).congr fun x => (bayFaultAt_cons m i b bay bays x fun y hy => by rw [hz] at hy; cases hy).symm

theorem bayFault_finds (i : RunId) : Finds MapFault.before (bayFault m i)
    (fun x => (m.runs[i]).defined = true ∧ BayFaultAt m i 0 (m.runs[i]).bays x) := by
  unfold bayFault
  split
  · rename_i hd
    exact (bayFaultFrom_finds m i 0 _).congr fun x => (and_iff_right hd).symm
  · rename_i hd
    exact ⟨fun _ x hx => hd hx.1, nofun⟩

/-- Code 9 of carriage `c` against each higher one (R19). -/
theorem pairFault_finds (c : CarId) : Finds MapFault.before (pairFault W F c) (fun x => ∃ d : CarId,
    x = { code := 9, first := c.val, second := some d.val } ∧ c < d ∧ (F.cars[c]).configured = true ∧
      (F.cars[d]).configured = true ∧ extentsClash W F c d = true) := by
  refine .numbers (fun d => .ite _) ?_
  rintro i j hij x y ⟨rfl, -⟩ ⟨rfl, -⟩
  exact .inr ⟨rfl, .inr ⟨rfl, hij⟩⟩

/-- Two present extents conflict or touch bays whose chains share a zone (R19, code 9). -/
theorem extentsClash_iff (c d : CarId) : extentsClash W F c d = true ↔
    ((F.cars[c]).cfg.run = (F.cars[d]).cfg.run ∧
      ∃ u ∈ occupied W F c, ∃ v ∈ occupied W F d, unitsConflict (runOf W F c).clearance u v = true) ∨
    ∃ z ∈ extentZones W F c, z ∈ extentZones W F d := by
  simp [extentsClash, conflictsAny]

/-- A fault of the map: its check's row of R19 (the checks in their order). -/
def FaultStands (x : MapFault) : Prop :=
  (∃ i : RunId, x = { code := 1, first := i.val, second := none } ∧
    (W.map.runs[i]).defined = true ∧ (W.map.runs[i]).bays = []) ∨
  (∃ i : RunId, x = { code := 2, first := i.val, second := none } ∧
    (W.map.runs[i]).defined = true ∧ 1048576 < (W.map.runs[i]).length) ∨
  (∃ z : ZoneId, ZoneFaultAt W.map z x) ∨
  (∃ i : RunId, (W.map.runs[i]).defined = true ∧ BayFaultAt W.map i 0 (W.map.runs[i]).bays x) ∨
  (∃ c : CarId, x = { code := 7, first := c.val, second := none } ∧ (F.cars[c]).configured = true ∧
    (!(runOf W F c).defined) = true) ∨
  (∃ c : CarId, x = { code := 8, first := c.val, second := none } ∧ (F.cars[c]).configured = true ∧
    ((F.cars[c]).cfg.homeLower < 0 ∨ (runOf W F c).last < (F.cars[c]).cfg.homeUpper)) ∨
  ∃ c d : CarId, x = { code := 9, first := c.val, second := some d.val } ∧ c < d ∧ (F.cars[c]).configured = true ∧
    (F.cars[d]).configured = true ∧ extentsClash W F c d = true

theorem ZoneFaultAt.item {m : TrackMap} {z : ZoneId} {x : MapFault} (h : ZoneFaultAt m z x) :
    x.check = 3 ∧ x.first = z.val := by
  rcases h with ⟨j, y, u, rfl, -⟩ | ⟨rfl, -⟩ | ⟨j, u, rfl, -⟩ <;> exact ⟨rfl, rfl⟩

theorem BayFaultAt.item {m : TrackMap} {i : RunId} {b : Nat} {bays : List Bay} {x : MapFault}
    (h : BayFaultAt m i b bays x) : x.check = 6 ∧ x.first = i.val := by
  obtain ⟨k, bay, z, rfl, -⟩ := h
  exact ⟨rfl, rfl⟩

/-- `lock` finds a fault exactly when one stands, and then one that is met before every other. -/
theorem lockFault_finds : Finds MapFault.before (lockFault W F) (FaultStands W F) := by
  have h9 : FindsAt 9 ((List.finRange 16).findSome? (pairFault W F)) _ :=
    .of_numbers (pairFault_finds W F) (by rintro i x ⟨d, rfl, -⟩; exact ⟨rfl, rfl⟩)
  have h8 : FindsAt 8 ((List.finRange 16).findSome? (carHomeFault W F)) _ :=
    .of_numbers (fun c => .ite _) (by rintro i x ⟨rfl, -⟩; exact ⟨rfl, rfl⟩)
  have h7 : FindsAt 7 ((List.finRange 16).findSome? (carRunFault W F)) _ :=
    .of_numbers (fun c => .ite _) (by rintro i x ⟨rfl, -⟩; exact ⟨rfl, rfl⟩)
  have h6 : FindsAt 6 ((List.finRange 8).findSome? (bayFault W.map)) _ :=
    .of_numbers (bayFault_finds W.map) (fun i x hx => hx.2.item)
  have h3 : FindsAt 3 ((List.finRange 32).findSome? (zoneFault W.map)) _ :=
    .of_numbers (fun z => .of_iff (zoneFault_eq_some_iff W.map z)) (fun z x hx => hx.item)
  have h2 : FindsAt 2 ((List.finRange 8).findSome? (runTooLong W.map)) _ :=
    .of_numbers (fun c => .ite _) (by rintro i x ⟨rfl, -⟩; exact ⟨rfl, rfl⟩)
  have h1 : FindsAt 1 ((List.finRange 8).findSome? (runEmpty W.map)) _ :=
    .of_numbers (fun c => .ite _) (by rintro i x ⟨rfl, -⟩; exact ⟨rfl, rfl⟩)
  exact (h1.then (h2.then (h3.then (h6.then (h7.then (h8.then h9.from (by decide)) (by decide)) (by decide))
    (by decide)) (by decide)) (by decide)).toFinds

end Checks

end Sys2Proof.Machine
end

section
namespace Sys2Proof.Machine

/-! ## What a map that passes lock meets -/

section Sound

variable (W : World) (F : Fleet)

theorem unitsConflict_comm (n : Nat) (a b : TrackUnit) : unitsConflict n a b = unitsConflict n b a := by
  simp only [unitsConflict, max_comm (a.first - b.stop), and_comm (a := b.first < a.stop)]

theorem bayFaultFrom_eq_none_iff (m : TrackMap) (i : RunId) (b : Nat) (bays : List Bay) :
    bayFaultFrom m i b bays = none ↔ ∀ bay ∈ bays, ∀ z, bay.zone = some z → (m.zones[z]).defined = true := by
  constructor
  · intro h bay hbay z hz
    obtain ⟨k, hk⟩ := List.getElem?_of_mem hbay
    by_contra hd
    exact (bayFaultFrom_finds m i b bays).nothing h _ ⟨k, bay, z, rfl, hk, hz, by simpa using hd⟩
  · intro h
    cases he : bayFaultFrom m i b bays with
    | none => rfl
    | some e =>
      obtain ⟨⟨k, bay, z, -, hk, hz, hd⟩, -⟩ := (bayFaultFrom_finds m i b bays).least e he
      rw [h bay (List.mem_of_getElem? hk) z hz] at hd; cases hd

/-- Neither do two carriages of one run conflict nor any two share a zone. -/
def Apart (c d : CarId) : Prop :=
  ((F.cars[c]).cfg.run = (F.cars[d]).cfg.run →
    ∀ u ∈ occupied W F c, ∀ v ∈ occupied W F d, unitsConflict (runOf W F c).clearance u v = false) ∧
  ∀ z ∈ extentZones W F c, z ∉ extentZones W F d

theorem Apart.symm {W : World} {F : Fleet} {c d : CarId} (h : Apart W F c d) : Apart W F d c :=
  ⟨fun hr u hu v hv => by
    have : runOf W F d = runOf W F c := by simp only [runOf, hr]
    rw [unitsConflict_comm, this]
    exact h.1 hr.symm v hv u hu, fun z hz hz' => h.2 z hz' hz⟩

theorem extentsClash_eq_false_iff (c d : CarId) : extentsClash W F c d = false ↔ Apart W F c d := by
  rw [← Bool.not_eq_true, extentsClash_iff, Apart]
  push Not
  simp only [Bool.not_eq_true]

theorem pairFault_eq_none_iff (c : CarId) : pairFault W F c = none ↔ ∀ d : CarId, c < d →
    (F.cars[c]).configured = true → (F.cars[d]).configured = true → Apart W F c d := by
  simp only [pairFault, List.findSome?_eq_none_iff, List.mem_finRange, true_imp_iff, ite_eq_right_iff, reduceCtorEq,
    imp_false, ← extentsClash_eq_false_iff, not_and, Bool.not_eq_true]

/-- The map passes `lock` exactly when it meets each check of R19. -/
theorem lockFault_eq_none_iff : lockFault W F = none ↔
    (∀ i : RunId, (W.map.runs[i]).defined = true → (W.map.runs[i]).bays ≠ [] ∧ (W.map.runs[i]).length ≤ 1048576) ∧
    (∀ z : ZoneId, (W.map.zones[z]).defined = true →
      (chainFrom W.map.zones 5 (some z)).length ≤ 4 ∧ (chainFrom W.map.zones 5 (some z)).Nodup ∧
      ∀ y ∈ chainFrom W.map.zones 5 (some z), (W.map.zones[y]).defined = true) ∧
    (∀ (i : RunId) (bay : Bay) (z : ZoneId), (W.map.runs[i]).defined = true → bay ∈ (W.map.runs[i]).bays →
      bay.zone = some z → (W.map.zones[z]).defined = true) ∧
    (∀ c : CarId, (F.cars[c]).configured = true → (runOf W F c).defined = true ∧
      0 ≤ (F.cars[c]).cfg.homeReference - (F.cars[c]).cfg.lowerReach ∧
      (F.cars[c]).cfg.homeReference + (F.cars[c]).cfg.upperReach ≤ (runOf W F c).last) ∧
    ∀ c d : CarId, c ≠ d → (F.cars[c]).configured = true → (F.cars[d]).configured = true → Apart W F c d := by
  have h1 : ∀ i, runEmpty W.map i = none ↔ ((W.map.runs[i]).defined = true → (W.map.runs[i]).bays ≠ []) := fun i => by
    simp [runEmpty]
  have h2 : ∀ i, runTooLong W.map i = none ↔ ((W.map.runs[i]).defined = true → (W.map.runs[i]).length ≤ 1048576) :=
    fun i => by simp [runTooLong]
  have h6 : ∀ i, bayFault W.map i = none ↔ ((W.map.runs[i]).defined = true → ∀ bay ∈ (W.map.runs[i]).bays,
      ∀ z, bay.zone = some z → (W.map.zones[z]).defined = true) := fun i => by
    unfold bayFault
    split
    · rename_i hd; rw [bayFaultFrom_eq_none_iff]; exact (imp_iff_right hd).symm
    · rename_i hd; exact iff_of_true rfl fun h => absurd h hd
  have h7 : ∀ c, carRunFault W F c = none ↔ ((F.cars[c]).configured = true → (runOf W F c).defined = true) := fun c => by
    simp [carRunFault]
  have h8 : ∀ c, carHomeFault W F c = none ↔ ((F.cars[c]).configured = true →
      0 ≤ (F.cars[c]).cfg.homeReference - (F.cars[c]).cfg.lowerReach ∧
      (F.cars[c]).cfg.homeReference + (F.cars[c]).cfg.upperReach ≤ (runOf W F c).last) := fun c => by
    simp [carHomeFault, CarConfig.homeLower, CarConfig.homeUpper]
  simp only [lockFault, Option.or_eq_none_iff, List.findSome?_eq_none_iff, List.mem_finRange, true_imp_iff, h1, h2,
    zoneFault_eq_none_iff, h6, h7, h8, pairFault_eq_none_iff]
  constructor
  · rintro ⟨e, l, z, b, r, x, a⟩
    refine ⟨fun i hi => ⟨e i hi, l i hi⟩, z, fun i bay z hi hb hz => b i hi bay hb z hz, fun c hc => ⟨r c hc, x c hc⟩,
      fun c d hcd hc hd => ?_⟩
    rcases lt_or_gt_of_ne hcd with h | h
    · exact a c d h hc hd
    · exact (a d c h hd hc).symm
  · rintro ⟨r, z, b, c, a⟩
    exact ⟨fun i hi => (r i hi).1, fun i hi => (r i hi).2, z, fun i hi bay hb z hz => b i bay z hi hb hz,
      fun i hi => (c i hi).1, fun i hi => (c i hi).2, fun i j hij => a i j (ne_of_lt hij)⟩

end Sound

/-- Settles O34: `lockFault` is a chain of searches, each of which finds the least fault that stands. -/
theorem lockedMapIsSound : Obligations.LockedMapIsSound := by
  refine ⟨fun W F => lockFault_eq_none_iff W F, ?_⟩
  intro W F e he chain sound stands check
  have row_iff : ∀ x, stands x ↔ FaultStands W F x := by
    rintro ⟨code, first, second⟩
    constructor
    · intro h
      simp only [stands] at h
      split at h
      · obtain ⟨i, rfl, rfl, h⟩ := h
        exact .inl ⟨i, rfl, h⟩
      · obtain ⟨i, rfl, rfl, h⟩ := h
        exact .inr (.inl ⟨i, rfl, h⟩)
      · obtain ⟨z, y, up, j, rfl, rfl, h⟩ := h
        exact .inr (.inr (.inl ⟨z, .inl ⟨j, y, up, rfl, h⟩⟩))
      · obtain ⟨z, rfl, rfl, hl, h⟩ := h
        exact .inr (.inr (.inl ⟨z, .inr (.inl ⟨rfl, Nat.succ.inj hl, h⟩)⟩))
      · obtain ⟨z, up, j, rfl, rfl, h⟩ := h
        exact .inr (.inr (.inl ⟨z, .inr (.inr ⟨j, up, rfl, h⟩)⟩))
      · obtain ⟨i, b, bay, z, rfl, rfl, hd, h⟩ := h
        exact .inr (.inr (.inr (.inl ⟨i, hd, b, bay, z, by rw [Nat.zero_add], h⟩)))
      · obtain ⟨c, rfl, rfl, hc, h⟩ := h
        exact .inr (.inr (.inr (.inr (.inl ⟨c, rfl, hc, by rw [h]; rfl⟩))))
      · obtain ⟨c, rfl, rfl, h⟩ := h
        exact .inr (.inr (.inr (.inr (.inr (.inl ⟨c, rfl, h⟩)))))
      · obtain ⟨c, d, rfl, rfl, hcd, hc, hd, h⟩ := h
        exact .inr (.inr (.inr (.inr (.inr (.inr ⟨c, d, rfl, hcd, hc, hd, (extentsClash_iff W F c d).mpr h⟩)))))
      · exact h.elim
    · rintro (⟨i, hx, h⟩ | ⟨i, hx, h⟩ | ⟨z, ⟨j, y, up, hx, h⟩ | ⟨hx, hl, h⟩ | ⟨j, up, hx, h⟩⟩ |
        ⟨i, hd, b, bay, z, hx, h⟩ | ⟨c, hx, hc, h⟩ | ⟨c, hx, h⟩ | ⟨c, d, hx, hcd, hc, hd, h⟩) <;> cases hx
      · exact ⟨i, rfl, rfl, h⟩
      · exact ⟨i, rfl, rfl, h⟩
      · exact ⟨z, y, up, j, rfl, rfl, h⟩
      · exact ⟨z, rfl, rfl, congrArg Nat.succ hl, h⟩
      · exact ⟨z, up, j, rfl, rfl, h⟩
      · exact ⟨i, b, bay, z, rfl, by rw [Nat.zero_add], hd, h⟩
      · exact ⟨c, rfl, rfl, hc, by simpa using h⟩
      · exact ⟨c, rfl, rfl, h⟩
      · exact ⟨c, d, rfl, rfl, hcd, hc, hd, (extentsClash_iff W F c d).mp h⟩
  obtain ⟨hst, hall⟩ := (lockFault_finds W F).least e he
  exact ⟨(row_iff e).mpr hst, fun x hx => hall x ((row_iff x).mp hx)⟩

/-! ## lock -/

section Lock

variable {W : World} {F : Fleet}

/-- On a map that passes `lock` a zone is reached by the present extent of one configured carriage at most. -/
theorem lowestReaching_eq_some_iff (h : lockFault W F = none) (z : ZoneId) (c : CarId) :
    lowestReaching W F z = some c ↔ (F.cars[c]).configured = true ∧ z ∈ extentZones W F c := by
  refine ⟨lowestReaching_reaches, fun ⟨hc, hz⟩ => ?_⟩
  cases hd : lowestReaching W F z with
  | none =>
    have := List.find?_eq_none.mp hd c (List.mem_finRange c)
    rw [hc, Bool.true_and, List.contains_iff_mem] at this
    exact absurd hz this
  | some d =>
    obtain ⟨hdc, hdz⟩ := lowestReaching_reaches hd
    by_contra hne
    have hcd : c ≠ d := fun e => hne (by rw [e])
    exact (((lockFault_eq_none_iff W F).mp h).2.2.2.2 c d hcd hc hdc).2 z hz hdz

/-- Whether the map is LOCKED, present extents reach the same zones. -/
theorem lockHolders_get (W : World) (F : Fleet) (z : ZoneId) :
    (lockHolders { W with map := { W.map with locked := true } } F).holders[z] = lowestReaching W F z := by
  simp only [lockHolders, Fin.getElem_fin, Vector.getElem_ofFn, Fin.eta]
  rfl

theorem lockHolders_kept (W : World) (F : Fleet) : (lockHolders W F).cars = F.cars ∧
    (lockHolders W F).slots = F.slots ∧ (lockHolders W F).occupancy = F.occupancy ∧
    (lockHolders W F).notices = F.notices := by
  unfold lockHolders
  exact ⟨rfl, rfl, rfl, rfl⟩

/-- A successful `lock` with the ESTOP line asserted adds ESTOP to every configured carriage (R153). -/
def lockedFleet (W : World) (F : Fleet) : Fleet := if W.estopLine then F.addHoldAll .estop else F

theorem lockedFleet_kept (W : World) (F : Fleet) : (lockedFleet W F).slots = F.slots ∧
    (lockedFleet W F).occupancy = F.occupancy ∧ (lockedFleet W F).notices = F.notices ∧
    (lockedFleet W F).holders = F.holders := by
  unfold lockedFleet
  split
  · simp
  · exact ⟨rfl, rfl, rfl, rfl⟩

theorem lockedFleet_get (W : World) (F : Fleet) (c : CarId) : (lockedFleet W F).cars[c] =
    if W.estopLine = true ∧ (F.cars[c]).configured = true then
      { F.cars[c] with holds := (F.cars[c]).holds.add .estop }
    else F.cars[c] := by
  unfold lockedFleet
  split
  · rename_i he
    rw [Fleet.addHoldAll_get]
    simp only [he, true_and]
  · rename_i he
    exact (if_neg fun h => he h.1).symm

theorem lockRule_passes {r : Records} (hl : r.world.map.locked = false) (he : lockFault r.world r.fleet = none) :
    lockRule .assured () r =
      (let W : World := { r.world with map := { r.world.map with locked := true } }
       (r.withMap W.map).withFleet (lockedFleet W (lockHolders W r.fleet)), plain .done) := by
  rw [lockRule, assuredOnly_assured, if_neg (by rw [hl]; exact Bool.false_ne_true), he]
  rfl

end Lock

/-- Settles O33. -/
theorem lockValidatesAndLocks : Obligations.LockValidatesAndLocks := by
  intro f rest s h
  refine ⟨fun hl => h.answers (x := ()) rfl (if_pos hl), fun e hl he => ?_, fun hl he => ?_⟩
  · refine h.answers (x := ()) rfl ((if_neg (by rw [hl]; exact Bool.false_ne_true)).trans ?_)
    rw [he]; rfl
  · let W : World := { s.records.world with map := { s.records.world.map with locked := true } }
    obtain ⟨hs, ho, hn, hh⟩ := lockedFleet_kept W (lockHolders W s.records.fleet)
    obtain ⟨hc', hs', ho', hn'⟩ := lockHolders_kept W s.records.fleet
    refine ⟨lockedFleet W (lockHolders W s.records.fleet), h.answers (x := ()) rfl (lockRule_passes hl he),
      hs.trans hs', ho.trans ho', hn.trans hn', fun z c => ?_, fun c => ?_⟩
    · rw [hh, lockHolders_get]
      exact lowestReaching_eq_some_iff he z c
    · rw [lockedFleet_get, hc']

end Sys2Proof.Machine
end

section
namespace Sys2Proof.Machine

/-! ## Units laid end to end (R2, R4) -/

section Units

/-- The lengths of bays together. -/
def lengthOf (bs : List Bay) : Nat := (bs.map Bay.length).sum

/-- The units of bays together. -/
def countOf (bs : List Bay) : Nat := (bs.map Bay.unitCount).sum

@[simp] theorem lengthOf_nil : lengthOf [] = 0 := rfl

@[simp] theorem lengthOf_cons (b : Bay) (bs : List Bay) : lengthOf (b :: bs) = b.length + lengthOf bs := by
  simp [lengthOf]

@[simp] theorem countOf_nil : countOf [] = 0 := rfl

@[simp] theorem countOf_cons (b : Bay) (bs : List Bay) : countOf (b :: bs) = b.unitCount + countOf bs := by
  simp [countOf]

theorem Run.bayStart_eq (r : Run) (b : Nat) : r.bayStart b = lengthOf (r.bays.take b) := rfl

/-- A unit contains a position. -/
def TrackUnit.holds (x : Int) (u : TrackUnit) : Bool := decide (u.first ≤ x ∧ x < u.stop)

theorem TrackUnit.holds_iff (x : Int) (u : TrackUnit) : u.holds x = true ↔ u.first ≤ x ∧ x < u.stop := decide_eq_true_iff

theorem Run.unitAt_eq (r : Run) (x : Int) : r.unitAt x = r.units.find? (TrackUnit.holds x) := rfl

theorem cellsFrom_bounds {bay num : Nat} {start : Int} {len count : Nat} {u : TrackUnit}
    (h : u ∈ cellsFrom bay num start len count) :
    u.bay = bay ∧ start ≤ u.first ∧ u.stop = u.first + len ∧ u.stop ≤ start + (len * count : Nat) := by
  induction count generalizing num start with
  | zero => cases h
  | succ n ih =>
    rw [Nat.mul_succ]
    rcases List.mem_cons.mp h with rfl | h
    · exact ⟨rfl, le_refl _, rfl, by push_cast; have := Nat.zero_le (len * n); omega⟩
    · obtain ⟨hb, h1, h2, h3⟩ := ih h
      exact ⟨hb, by omega, h2, by push_cast at h3 ⊢; omega⟩

theorem bayUnits_bounds {bay num : Nat} {start : Int} {b : Bay} {u : TrackUnit} (h : u ∈ bayUnits bay num start b) :
    u.bay = bay ∧ start ≤ u.first ∧ u.first ≤ u.stop ∧ u.stop ≤ start + b.length := by
  obtain ⟨len, count, hc, hl⟩ : ∃ len count, u ∈ cellsFrom bay num start len count ∧ b.length = len * count := by
    unfold bayUnits at h
    unfold Bay.length
    cases hs : b.shape <;> rw [hs] at h
    · exact ⟨_, _, h, (Nat.mul_one _).symm⟩
    · exact ⟨_, _, h, rfl⟩
  obtain ⟨hb, h1, h2, h3⟩ := cellsFrom_bounds hc
  exact ⟨hb, h1, by omega, by rw [hl]; exact h3⟩

/-- Units of bays laid from `start` lie between there and the end of the last bay. -/
theorem unitsFrom_bounds {bay num : Nat} {start : Int} {bs : List Bay} {u : TrackUnit}
    (h : u ∈ unitsFrom bay num start bs) :
    start ≤ u.first ∧ u.first ≤ u.stop ∧ u.stop ≤ start + lengthOf bs := by
  induction bs generalizing bay num start with
  | nil => cases h
  | cons b bs ih =>
    rw [lengthOf_cons]
    push_cast
    rcases List.mem_append.mp h with h | h
    · obtain ⟨-, h1, h2, h3⟩ := bayUnits_bounds h
      omega
    · obtain ⟨h1, h2, h3⟩ := ih h
      omega

theorem cellsFrom_nums (bay num : Nat) (start : Int) (len count : Nat) :
    (cellsFrom bay num start len count).map TrackUnit.num = List.range' num count := by
  induction count generalizing num start with
  | zero => rfl
  | succ n ih => simp [cellsFrom, ih, List.range'_succ]

theorem bayUnits_nums (bay num : Nat) (start : Int) (b : Bay) :
    (bayUnits bay num start b).map TrackUnit.num = List.range' num b.unitCount := by
  unfold bayUnits Bay.unitCount
  split <;> exact cellsFrom_nums _ _ _ _ _

/-- Units are numbered one after the other (R4). -/
theorem unitsFrom_nums (bay num : Nat) (start : Int) (bs : List Bay) :
    (unitsFrom bay num start bs).map TrackUnit.num = List.range' num (countOf bs) := by
  induction bs generalizing bay num start with
  | nil => rfl
  | cons b bs ih =>
    simp only [unitsFrom, List.map_append, bayUnits_nums, ih, countOf_cons]
    exact List.range'_append_1

/-- The cell that holds a position is found by division. -/
theorem cellsFrom_find (bay num : Nat) (start : Int) (len count : Nat) (x : Int) (h0 : start ≤ x)
    (h1 : x < start + (len * count : Nat)) :
    (cellsFrom bay num start len count).find? (TrackUnit.holds x) = some
      { bay := bay, num := num + ((x - start) / len).toNat, first := start + (x - start) / len * len,
        stop := start + (x - start) / len * len + len } := by
  induction count generalizing num start with
  | zero => simp at h1; omega
  | succ n ih =>
    rw [cellsFrom]
    by_cases hx : x < start + len
    · have hq : (x - start) / len = 0 := Int.ediv_eq_zero_of_lt (by omega) (by omega)
      rw [List.find?_cons_of_pos ((TrackUnit.holds_iff _ _).mpr ⟨h0, hx⟩), hq]
      simp
    · have hlen : (len : Int) ≠ 0 := by
        rintro e
        have : len = 0 := by exact_mod_cast e
        subst this
        simp at h1; omega
      have hq : (x - start) / len = (x - (start + len)) / len + 1 := by
        rw [show x - start = x - (start + len) + 1 * len by ring, Int.add_mul_ediv_right _ _ hlen]
      have hpos : 0 ≤ (x - (start + len)) / len := Int.ediv_nonneg (by omega) (by omega)
      rw [List.find?_cons_of_neg (by rw [TrackUnit.holds_iff]; exact fun h => hx h.2), ih (num + 1) (start + len) (by omega) (by
        rw [Nat.mul_succ] at h1; push_cast at h1 ⊢; omega), hq]
      have : ((x - (start + len)) / len + 1).toNat = ((x - (start + len)) / len).toNat + 1 := by omega
      simp only [this, Option.some.injEq, TrackUnit.mk.injEq, true_and]
      refine ⟨by omega, by ring, by ring⟩

/-- The unit of a bay that holds a position of it (R4). -/
def unitInBay (bay num : Nat) (start : Int) (b : Bay) (x : Int) : TrackUnit :=
  match b.shape with
  | .plain l => { bay := bay, num := num, first := start, stop := start + l }
  | .celled l _ =>
    { bay := bay, num := num + ((x - start) / l).toNat, first := start + (x - start) / l * l,
      stop := start + (x - start) / l * l + l }

theorem bayUnits_find {bay num : Nat} {start : Int} {b : Bay} {x : Int} (h0 : start ≤ x) (h1 : x < start + b.length) :
    (bayUnits bay num start b).find? (TrackUnit.holds x) = some (unitInBay bay num start b x) := by
  unfold bayUnits unitInBay
  unfold Bay.length at h1
  cases hs : b.shape <;> rw [hs] at h1
  · simp only at h1 ⊢
    rw [cellsFrom, List.find?_cons_of_pos ((TrackUnit.holds_iff _ _).mpr ⟨h0, h1⟩)]
  · exact cellsFrom_find _ _ _ _ _ _ h0 h1

/-- The unit found for a position that bay `k` holds is that bay's. -/
theorem unitsFrom_find (bay num : Nat) (start : Int) {bs : List Bay} {k : Nat} {b : Bay} {x : Int}
    (hb : bs[k]? = some b) (h0 : start + lengthOf (bs.take k) ≤ x) (h1 : x < start + lengthOf (bs.take k) + b.length) :
    (unitsFrom bay num start bs).find? (TrackUnit.holds x) =
      some (unitInBay (bay + k) (num + countOf (bs.take k)) (start + lengthOf (bs.take k)) b x) := by
  induction bs generalizing bay num start k with
  | nil => simp at hb
  | cons c bs ih =>
    rw [unitsFrom, List.find?_append]
    cases k with
    | zero =>
      simp only [List.getElem?_cons_zero, Option.some.injEq] at hb
      subst hb
      simp only [List.take_zero, lengthOf_nil, countOf_nil, Nat.cast_zero, add_zero] at h0 h1 ⊢
      rw [bayUnits_find h0 h1, Option.some_or]
    | succ k =>
      simp only [List.getElem?_cons_succ] at hb
      simp only [List.take_succ_cons, lengthOf_cons, countOf_cons, Nat.cast_add] at h0 h1 ⊢
      have hnone : (bayUnits bay num start c).find? (TrackUnit.holds x) = none := by
        rw [List.find?_eq_none]
        intro u hu
        obtain ⟨-, -, -, hstop⟩ := bayUnits_bounds hu
        rw [TrackUnit.holds_iff]
        omega
      rw [hnone, Option.none_or, ih (bay + 1) (num + c.unitCount) (start + c.length) hb (by omega) (by omega)]
      simp only [Nat.add_comm 1 k, add_assoc]

/-- A position on the bays lies in one of them. -/
theorem exists_bay_of_lt (bs : List Bay) (x : Int) (h0 : 0 ≤ x) (h1 : x < lengthOf bs) :
    ∃ (k : Nat) (b : Bay), bs[k]? = some b ∧ (lengthOf (bs.take k) : Int) ≤ x ∧ x < lengthOf (bs.take k) + b.length := by
  induction bs generalizing x with
  | nil => simp at h1; omega
  | cons c bs ih =>
    simp only [lengthOf_cons, Nat.cast_add] at h1
    by_cases hx : x < c.length
    · exact ⟨0, c, rfl, by simpa using h0, by simpa using hx⟩
    · obtain ⟨k, b, hb, hk0, hk1⟩ := ih (x - c.length) (by omega) (by omega)
      refine ⟨k + 1, b, hb, ?_, ?_⟩ <;>
        simp only [List.take_succ_cons, lengthOf_cons, Nat.cast_add] <;> omega

end Units

/-! ## Directions -/

theorem beyond_iff (d : Dir) (a b : Int) : beyond d a b = true ↔ match d with
    | .up => b < a
    | .down => a < b := by
  cases d <;> exact decide_eq_true_iff

theorem atOrBeyond_iff (d : Dir) (a b : Int) : atOrBeyond d a b = true ↔ match d with
    | .up => b ≤ a
    | .down => a ≤ b := by
  rw [atOrBeyond, Bool.not_eq_true', ← Bool.not_eq_true, beyond_iff]
  cases d <;> exact not_lt

/-! ## Runs -/

section Runs

variable {r : Run} {x : Int}

theorem Run.units_defined (h : r.defined = true) : r.units = unitsFrom 0 0 0 r.bays := if_pos h

theorem Run.units_undefined (h : r.defined = false) : r.units = [] := by simp [Run.units, h]

theorem Run.length_defined (h : r.defined = true) : r.length = lengthOf r.bays := if_pos h

/-- Units lie on their run. -/
theorem Run.unit_bounds {u : TrackUnit} (h : u ∈ r.units) : 0 ≤ u.first ∧ u.first ≤ u.stop ∧ u.stop ≤ r.length := by
  unfold Run.units at h
  unfold Run.length
  split at h
  · rename_i hd
    have := unitsFrom_bounds h
    rw [if_pos hd]
    change _ ∧ _ ∧ _ ≤ ((lengthOf r.bays : Nat) : Int)
    omega
  · cases h

theorem Run.unitAt_some {u : TrackUnit} (h : r.unitAt x = some u) : u ∈ r.units ∧ u.first ≤ x ∧ x < u.stop :=
  ⟨List.mem_of_find?_eq_some h, (TrackUnit.holds_iff _ _).mp (List.find?_some (p := TrackUnit.holds x) h)⟩

/-- Off the run there is no unit. -/
theorem Run.unitAt_off (h : r.defined = false ∨ x < 0 ∨ (r.length : Int) ≤ x) : r.unitAt x = none := by
  cases hu : r.unitAt x with
  | none => rfl
  | some u =>
    obtain ⟨hm, h1, h2⟩ := Run.unitAt_some hu
    obtain ⟨h3, h4, h5⟩ := Run.unit_bounds hm
    rcases h with h | h | h
    · rw [Run.units_undefined h] at hm; cases hm
    · omega
    · omega

theorem Run.unitAt_of_bay {b : Nat} {bay : Bay} (hd : r.defined = true) (hb : r.bays[b]? = some bay)
    (h0 : (r.bayStart b : Int) ≤ x) (h1 : x < r.bayStart b + bay.length) :
    r.unitAt x = some (unitInBay b (countOf (r.bays.take b)) (r.bayStart b) bay x) := by
  rw [Run.bayStart_eq] at h0 h1 ⊢
  have h := unitsFrom_find 0 0 0 hb (x := x) (by rwa [zero_add]) (by rwa [zero_add])
  rw [← Run.units_defined hd, ← Run.unitAt_eq] at h
  simpa only [Nat.zero_add, zero_add] using h

theorem Run.exists_bay (hd : r.defined = true) (h0 : 0 ≤ x) (h1 : x < r.length) :
    ∃ b bay, r.bays[b]? = some bay ∧ (r.bayStart b : Int) ≤ x ∧ x < r.bayStart b + bay.length :=
  exists_bay_of_lt r.bays x h0 (by rwa [Run.length_defined hd] at h1)

theorem Run.defined_of_length (h : 0 < r.length) : r.defined = true := by
  by_contra hd
  simp [Run.length, hd] at h

/-- Every position of a run lies in a unit of it. -/
theorem Run.exists_unitAt (h0 : 0 ≤ x) (h1 : x < r.length) : ∃ u, r.unitAt x = some u := by
  have hd := Run.defined_of_length (r := r) (by omega)
  obtain ⟨b, bay, hb, hx⟩ := Run.exists_bay hd h0 h1
  exact ⟨_, Run.unitAt_of_bay hd hb hx.1 hx.2⟩

/-- Rounding out never goes back, and lands on the run. -/
theorem Run.roundOut_spec (d : Dir) (x : Int) (hpos : 0 < r.length) :
    0 ≤ r.roundOut d x ∧ r.roundOut d x ≤ r.last ∧ (x < 0 → r.roundOut d x = 0) ∧
      (r.last < x → r.roundOut d x = r.last) ∧
      (0 ≤ x → x ≤ r.last → ∃ u, r.unitAt x = some u ∧ r.roundOut d x = u.far d ∧
        atOrBeyond d (r.roundOut d x) x = true) := by
  have hlast : r.last = r.length - 1 := rfl
  unfold Run.roundOut
  by_cases hneg : x < 0
  · rw [if_pos hneg]
    exact ⟨le_refl 0, by omega, fun _ => rfl, fun _ => by omega, fun _ => by omega⟩
  · rw [if_neg hneg]
    by_cases hoff : r.last < x
    · rw [if_pos hoff]
      exact ⟨by omega, le_refl _, fun _ => by omega, fun _ => rfl, fun _ => by omega⟩
    · rw [if_neg hoff]
      obtain ⟨u, hu⟩ := Run.exists_unitAt (r := r) (x := x) (by omega) (by omega)
      obtain ⟨hm, h1, h2⟩ := Run.unitAt_some hu
      obtain ⟨h3, h4, h5⟩ := Run.unit_bounds hm
      rw [hu]
      have hfar : 0 ≤ u.far d ∧ u.far d ≤ r.last ∧ atOrBeyond d (u.far d) x = true := by
        rw [atOrBeyond_iff]
        cases d <;> simp only [TrackUnit.far] <;> omega
      exact ⟨hfar.1, hfar.2.1, fun h => absurd h hneg, fun h => absurd h hoff, fun _ _ => ⟨u, rfl, rfl, hfar.2.2⟩⟩

end Runs

/-- Settles O21. -/
theorem translationOfPositions : Obligations.TranslationOfPositions := by
  intro r x
  refine ⟨Run.unitAt_off, Run.exists_bay, fun b bay hd hb h0 h1 => ?_, fun hd => ?_, fun d => Run.roundOut_spec d x⟩
  · rw [Run.unitAt_of_bay hd hb h0 h1, unitInBay]
    cases bay.shape <;> rfl
  · rw [Run.units_defined hd, unitsFrom_nums, ← List.range_eq_range']
    rfl

end Sys2Proof.Machine
end

section
namespace Sys2Proof.Machine

/-! ## Units in order -/

section Order

/-- Two units of a run stand in order of their numbers, and different units have different numbers. -/
def InOrder (u v : TrackUnit) : Prop :=
  (u.num < v.num → u.stop ≤ v.first) ∧ (v.num < u.num → v.stop ≤ u.first) ∧ (u.num = v.num → u = v)

theorem cellsFrom_pairwise (bay num : Nat) (start : Int) (len count : Nat) :
    (cellsFrom bay num start len count).Pairwise (fun u v => u.num < v.num ∧ u.stop ≤ v.first) := by
  induction count generalizing num start with
  | zero => exact .nil
  | succ n ih =>
    refine List.pairwise_cons.mpr ⟨fun v hv => ?_, ih _ _⟩
    have hnum : v.num ∈ List.range' (num + 1) n := by
      rw [← cellsFrom_nums bay (num + 1) (start + len) len n]
      exact List.mem_map_of_mem hv
    obtain ⟨-, hfirst, -⟩ := cellsFrom_bounds hv
    exact ⟨(List.mem_range'_1.mp hnum).1, hfirst⟩

theorem bayUnits_pairwise (bay num : Nat) (start : Int) (b : Bay) :
    (bayUnits bay num start b).Pairwise (fun u v => u.num < v.num ∧ u.stop ≤ v.first) := by
  unfold bayUnits
  split <;> exact cellsFrom_pairwise _ _ _ _ _

theorem unitsFrom_pairwise (bay num : Nat) (start : Int) (bs : List Bay) :
    (unitsFrom bay num start bs).Pairwise (fun u v => u.num < v.num ∧ u.stop ≤ v.first) := by
  induction bs generalizing bay num start with
  | nil => exact .nil
  | cons b bs ih =>
    refine List.pairwise_append.mpr ⟨bayUnits_pairwise _ _ _ _, ih _ _ _, fun u hu v hv => ?_⟩
    have hunum : u.num ∈ List.range' num b.unitCount := by
      rw [← bayUnits_nums bay num start b]
      exact List.mem_map_of_mem hu
    have hvnum : v.num ∈ List.range' (num + b.unitCount) (countOf bs) := by
      rw [← unitsFrom_nums (bay + 1) (num + b.unitCount) (start + b.length) bs]
      exact List.mem_map_of_mem hv
    obtain ⟨-, -, -, hstop⟩ := bayUnits_bounds hu
    obtain ⟨hfirst, -⟩ := unitsFrom_bounds hv
    exact ⟨(List.mem_range'_1.mp hunum).2.trans_le (List.mem_range'_1.mp hvnum).1, hstop.trans hfirst⟩

variable {r : Run}

theorem Run.units_pairwise : r.units.Pairwise (fun u v => u.num < v.num ∧ u.stop ≤ v.first) := by
  unfold Run.units
  split
  · exact unitsFrom_pairwise _ _ _ _
  · exact .nil

/-- The units of a run stand in order. -/
theorem Run.units_inOrder {u v : TrackUnit} (hu : u ∈ r.units) (hv : v ∈ r.units) : InOrder u v := by
  have : Std.Symm InOrder := ⟨fun u v h => ⟨h.2.1, h.1, fun e => (h.2.2 e.symm).symm⟩⟩
  refine List.Pairwise.forall_of_forall (R := InOrder) ?_ ?_ hu hv
  · exact fun u _ => ⟨fun h => absurd h (Nat.lt_irrefl _), fun h => absurd h (Nat.lt_irrefl _), fun _ => rfl⟩
  · refine Run.units_pairwise.imp fun {u v} ⟨hn, hs⟩ => ⟨fun _ => hs, fun h => absurd h (Nat.not_lt.mpr hn.le),
      fun e => absurd e (Nat.ne_of_lt hn)⟩

/-- The units between those of two positions are those that the stretch between the positions touches. -/
theorem Run.between_eq (x y : Int) : r.between x y =
    r.units.filter (fun u => decide (u.first ≤ max (r.clamp x) (r.clamp y) ∧ min (r.clamp x) (r.clamp y) < u.stop)) := by
  unfold Run.between
  by_cases hpos : 0 < r.length
  · have hon : ∀ x, 0 ≤ r.clamp x ∧ r.clamp x < r.length := fun x => by
      simp only [Run.clamp, Run.last]; omega
    obtain ⟨u, hu⟩ := Run.exists_unitAt (hon x).1 (hon x).2
    obtain ⟨v, hv⟩ := Run.exists_unitAt (hon y).1 (hon y).2
    simp only [Run.unitNear, hu, hv]
    obtain ⟨hum, hu1, hu2⟩ := Run.unitAt_some hu
    obtain ⟨hvm, hv1, hv2⟩ := Run.unitAt_some hv
    refine List.filter_congr fun k hk => ?_
    rw [decide_eq_decide]
    obtain ⟨-, hk1, -⟩ := Run.unit_bounds hk
    obtain ⟨hku, huk, heu⟩ := Run.units_inOrder hk hum
    obtain ⟨hkv, hvk, hev⟩ := Run.units_inOrder hk hvm
    obtain ⟨huv, hvu, -⟩ := Run.units_inOrder hum hvm
    have heu1 : k.num = u.num → k.first = u.first ∧ k.stop = u.stop := fun e => by rw [heu e]; exact ⟨rfl, rfl⟩
    have hev1 : k.num = v.num → k.first = v.first ∧ k.stop = v.stop := fun e => by rw [hev e]; exact ⟨rfl, rfl⟩
    omega
  · have hnear : ∀ x, r.unitNear x = none := fun x => Run.unitAt_off (.inr (by
      simp only [Run.clamp, Run.last]; omega))
    simp only [hnear]
    refine (List.filter_eq_nil_iff.mpr fun u hu => ?_).symm
    obtain ⟨h1, h2, h3⟩ := Run.unit_bounds hu
    intro h
    have h := of_decide_eq_true h
    simp only [Run.clamp, Run.last] at h
    omega

end Order

end Sys2Proof.Machine
end

section
namespace Sys2Proof.Machine

/-! ## Chains, access and ceilings (R3, R6 to R8, R75) -/

section Attributes

theorem chainFrom_length_le (zones : Vector Zone 32) (fuel : Nat) (z : Option ZoneId) :
    (chainFrom zones fuel z).length ≤ fuel := by
  induction fuel generalizing z with
  | zero => exact le_refl 0
  | succ n ih =>
    cases z with
    | none => exact Nat.zero_le _
    | some z => exact Nat.succ_le_succ (ih _)

theorem chainFrom_head (zones : Vector Zone 32) (fuel : Nat) (z : Option ZoneId) :
    (chainFrom zones (fuel + 1) z)[0]? = z := by
  cases z <;> rfl

/-- Each zone of a chain is followed by its parent. -/
theorem chainFrom_next (zones : Vector Zone 32) (fuel : Nat) (z : Option ZoneId) {j : Nat} (hj : j + 1 < fuel) :
    (chainFrom zones fuel z)[j + 1]? = (chainFrom zones fuel z)[j]?.bind (fun z => (zones[z]).parent) := by
  induction fuel generalizing z j with
  | zero => omega
  | succ n ih =>
    cases z with
    | none => rfl
    | some z =>
      rw [chainFrom_some, List.getElem?_cons_succ]
      cases j with
      | zero =>
        obtain ⟨m, rfl⟩ : ∃ m, n = m + 1 := ⟨n - 1, by omega⟩
        exact chainFrom_head _ _ _
      | succ j => exact ih _ (by omega)

/-- The least of a start and of the values that the members of a list have. -/
def leastOf {α : Type} (f : α → Option Nat) (start : Nat) (l : List α) : Nat :=
  l.foldl (fun acc a => match f a with
    | some x => min acc x
    | none => acc) start

theorem leastOf_isLeast {α : Type} (f : α → Option Nat) (start : Nat) (l : List α) :
    IsLeast { x : Nat | x = start ∨ ∃ a ∈ l, f a = some x } (leastOf f start l) := by
  induction l generalizing start with
  | nil => exact ⟨.inl rfl, by rintro x (rfl | ⟨a, ha, -⟩); exacts [le_refl _, absurd ha List.not_mem_nil]⟩
  | cons a l ih =>
    have hstep : leastOf f start (a :: l) = leastOf f ((f a).elim start (min start)) l := by
      simp only [leastOf, List.foldl_cons]
      cases f a <;> rfl
    obtain ⟨hmem, hle⟩ := ih ((f a).elim start (min start))
    have hstart : leastOf f ((f a).elim start (min start)) l ≤ (f a).elim start (min start) := hle (.inl rfl)
    rw [hstep]
    refine ⟨?_, ?_⟩
    · rcases hmem with h | ⟨b, hb, hx⟩
      · cases hfa : f a with
        | none => rw [hfa] at h; exact .inl h
        | some y =>
          rw [hfa] at h
          rcases min_choice start y with e | e
          · exact .inl (h.trans e)
          · exact .inr ⟨a, List.mem_cons_self, hfa.trans (congrArg some (h.trans e).symm)⟩
      · exact .inr ⟨b, List.mem_cons_of_mem _ hb, hx⟩
    · rintro x (rfl | ⟨b, hb, hx⟩)
      · refine hstart.trans ?_
        cases f a with
        | none => exact le_refl _
        | some y => exact min_le_left _ _
      · rcases List.mem_cons.mp hb with rfl | hb
        · rw [hx] at hstart
          exact (by rw [hx]; exact hstart.trans (min_le_right _ _))
        · exact hle (.inr ⟨b, hb, hx⟩)

variable (m : TrackMap) (b : Bay) (k : Cls)

theorem TrackMap.ceiling_isLeast :
    IsLeast { x : Nat | x = b.ceiling ∨ ∃ z ∈ m.chain b, (m.zones[z]).ceiling = some x } (m.ceiling b) :=
  leastOf_isLeast (fun z : ZoneId => (m.zones[z]).ceiling) b.ceiling (m.chain b)

theorem TrackMap.ceilingFor_eq (creep : Nat) :
    m.ceilingFor b k creep = if m.access b k = .creep then min (m.ceiling b) creep else m.ceiling b := by
  unfold TrackMap.ceilingFor
  cases m.access b k <;> rfl

/-- Without an access override in the chain the bay's own access holds. -/
theorem TrackMap.access_own (h : ∀ z ∈ m.chain b, (m.zones[z]).access = none) :
    m.access b k = b.access.entry k := by
  rw [TrackMap.access, List.findSome?_eq_none_iff.mpr h]
  rfl

/-- The nearest access override of the chain holds. -/
theorem TrackMap.access_nearest {nearer above : List ZoneId} {z : ZoneId} {a : AccessSet}
    (hc : m.chain b = nearer ++ z :: above) (hn : ∀ y ∈ nearer, (m.zones[y]).access = none)
    (ha : (m.zones[z]).access = some a) : m.access b k = a.entry k := by
  rw [TrackMap.access, hc, List.findSome?_append, List.findSome?_eq_none_iff.mpr hn, List.findSome?_cons, ha]
  rfl

theorem leastCeiling_isLeast (W : World) (F : Fleet) (c : CarId) (start : Nat) (us : List TrackUnit) :
    IsLeast { x : Nat | x = start ∨ ∃ u ∈ us, ∃ b, (runOf W F c).bay u.bay = some b ∧
      x = W.map.ceilingFor b k (F.cars[c]).cfg.creepSpeed } (leastCeiling W F c k start us) := by
  let f : TrackUnit → Option Nat := fun u =>
    ((runOf W F c).bay u.bay).map (fun b => W.map.ceilingFor b k (F.cars[c]).cfg.creepSpeed)
  have he : leastCeiling W F c k start us = leastOf f start us := by
    refine congrArg (fun g => us.foldl g start) (funext fun acc => funext fun u => ?_)
    cases h : (runOf W F c).bay u.bay <;> simp only [f, h, Option.map_none, Option.map_some]
  rw [he]
  have hs : { x : Nat | x = start ∨ ∃ u ∈ us, ∃ b, (runOf W F c).bay u.bay = some b ∧
      x = W.map.ceilingFor b k (F.cars[c]).cfg.creepSpeed } = { x | x = start ∨ ∃ u ∈ us, f u = some x } := by
    ext x
    simp only [f, Option.map_eq_some_iff, Set.mem_ofPred_eq, eq_comm (b := x)]
  rw [hs]
  exact leastOf_isLeast f start us

/-- The units of a ceiling in full: those that the stretch between its two ends on the run touches. -/
theorem fullCeiling_eq (W : World) (F : Fleet) (w : Warrant) : fullCeiling W F w =
    leastCeiling W F w.carriage w.cls (F.cars[w.carriage]).cfg.maxSpeed
      ((runOf W F w.carriage).between
        (if w.state = .suspended then w.rear else (F.cars[w.carriage]).lead w.dir) w.limit) := by
  unfold fullCeiling spanUnits
  cases w.state <;> rfl

end Attributes

section Caps

/-- The downshift cap lies between the creep speed and the max speed (R51). -/
theorem downshiftCap_bounds (k : Carriage) (h : k.cfg.creepSpeed ≤ k.cfg.maxSpeed) :
    k.cfg.creepSpeed ≤ downshiftCap k ∧ downshiftCap k ≤ k.cfg.maxSpeed := by
  unfold downshiftCap
  split <;> omega

variable (W : World) (F : Fleet) (c : CarId) (w : Warrant)

/-- The effective ceiling is the least of the warrant ceiling, the downshift cap and, when there is one, the wind cap
(R53). -/
theorem effectiveCeiling_eq : effectiveCeiling W F c w =
    (windCap W.wind (runOf W F c)).elim (min w.ceiling (downshiftCap F.cars[c]))
      (min (min w.ceiling (downshiftCap F.cars[c]))) := by
  unfold effectiveCeiling
  cases windCap W.wind (runOf W F c) <;> rfl

theorem windCap_none (wind : Wind) (r : Run) (h : r.exposed = false ∨ wind.state = .calm) : windCap wind r = none := by
  unfold windCap
  split
  · rename_i he
    rw [h.resolve_left (by rw [he]; exact Bool.noConfusion)]
  · rfl

theorem windCap_breeze (wind : Wind) (r : Run) (he : r.exposed = true) (h : wind.state = .breeze) :
    windCap wind r = some wind.breezeCap := by
  rw [windCap, if_pos he, h]

theorem windCap_gale (wind : Wind) (r : Run) (he : r.exposed = true) (hc : wind.state ≠ .calm)
    (hb : wind.state ≠ .breeze) : windCap wind r = some wind.galeCap := by
  rw [windCap, if_pos he]
  split
  · rename_i h; exact absurd h hc
  · rename_i h; exact absurd h hb
  · rfl

theorem effectiveCeiling_le : effectiveCeiling W F c w ≤ min w.ceiling (downshiftCap F.cars[c]) := by
  rw [effectiveCeiling_eq]
  cases windCap W.wind (runOf W F c) with
  | none => exact le_refl _
  | some cap => exact min_le_left _ _

end Caps

/-- Settles O25, clause by clause. -/
theorem effectiveCeilingAndTolerance : Obligations.EffectiveCeilingAndTolerance := by
  refine ⟨fun m b => ⟨chainFrom_length_le _ _ _, chainFrom_head _ _ _, fun j hj => chainFrom_next _ _ _ (by omega)⟩,
    fun m b k => ?_, fun W F c k start us => leastCeiling_isLeast k W F c start us, fun W F w => ?_, fun k h => ?_,
    fun W F c w => ?_, fun x hx => ⟨rfl, by unfold tolerance; omega, by unfold tolerance; omega⟩⟩
  · have hown : ∀ a : AccessSet, (match k with
        | .auto => a.auto
        | .operator => a.operator
        | .maintenance => a.maintenance
        | .emergency => a.emergency) = a.entry k := fun a => by cases k <;> rfl
    exact ⟨fun h => (m.access_own b k h).trans (hown _).symm,
      fun _ _ _ a hc hn ha => (m.access_nearest b k hc hn ha).trans (hown a).symm, m.ceiling_isLeast b,
      m.ceilingFor_eq b k⟩
  · rw [fullCeiling_eq, Run.between_eq]
    rfl
  · refine ⟨(downshiftCap_bounds k h).1, (downshiftCap_bounds k h).2, fun e => ?_, fun e => ?_, fun e => ?_⟩ <;>
      simp only [downshiftCap, e]
  · have hle := effectiveCeiling_le W F c w
    refine ⟨hle.trans (min_le_left _ _), hle.trans (min_le_right _ _), fun h => ?_, fun he h => ?_, fun he hc hb => ?_⟩ <;>
      rw [effectiveCeiling_eq]
    · rw [windCap_none _ _ h]; rfl
    · rw [windCap_breeze _ _ he h]; rfl
    · rw [windCap_gale _ _ he hc hb]; rfl

end Sys2Proof.Machine
end

section
namespace Sys2Proof.Machine

/-! ## The grant walk (R69 to R73) -/

section Walk

variable (W : World) (F : Fleet) (p : WalkPlan)

/-- The checks of a unit, in their order (R70). -/
def checkOrder : List Blocker := [.service, .ceiling, .access, .condition, .wind, .maint, .zone, .occupied, .check]

/-- A unit outside the old span meets a check bay (R72; notes/assumptions/17.md). -/
def meetsNew (u : TrackUnit) : Bool :=
  !inSpan p.oldSpan u.num && ((runOf W F p.car).bay u.bay).any (meetsCheckBay W F p u)

/-- Unit `u` of bay `b` fails check `k` when `met` is the check bay met so far; an old-span unit meets SERVICE,
CONDITION, WIND and MAINT alone (R70, R126). -/
def failsCheck (others : List TrackUnit) (met : Option Nat) (u : TrackUnit) (b : Bay) : Blocker → Bool
  | .service => !b.inService
  | .ceiling => !inSpan p.oldSpan u.num && decide (W.map.ceiling b = 0)
  | .access => !inSpan p.oldSpan u.num && decide (W.map.access b p.cls = .deny)
  | .condition => conditionFails W b
  | .wind => p.windFails W F
  | .maint => p.maintFails W F
  | .zone => !inSpan p.oldSpan u.num && zoneHeldByOther W F p.car b
  | .occupied => !inSpan p.oldSpan u.num &&
      (!F.reserves p.car u && conflictsAny (runOf W F p.car).clearance u others)
  | .check => meetsNew W F p u && met.any (fun n => n != u.bay)

theorem find?_cons_if {α : Type} (f : α → Bool) (a : α) (l : List α) :
    (a :: l).find? f = if f a then some a else l.find? f := by
  rw [List.find?_cons]
  cases f a <;> rfl

/-- The state of a walk that has passed one more unit. -/
def WalkState.pass (st : WalkState) (u : TrackUnit) (b : Bay) : WalkState where
  met := if meetsNew W F p u then st.met.or (some u.bay) else st.met
  confirm := if meetsNew W F p u && st.met.isNone then some (confirmShortOf (runOf W F p.car) p.dir u.bay b)
    else st.confirm
  passed := u :: st.passed

/-- Only CHECK looks at the check bay met. -/
theorem failsCheck_congr (others : List TrackUnit) {k : Blocker} (hk : k ≠ .check) (met met' : Option Nat)
    (u : TrackUnit) (b : Bay) : failsCheck W F p others met u b k = failsCheck W F p others met' u b k := by
  cases k with
  | check => exact absurd rfl hk
  | _ => rfl

/-- A unit is tested by its checks in their order, and the first that fails stops the walk. -/
theorem testUnit_eq (others : List TrackUnit) (st : WalkState) {u : TrackUnit} {b : Bay}
    (hb : (runOf W F p.car).bay u.bay = some b) : testUnit W F p others u st =
      match checkOrder.find? (failsCheck W F p others st.met u b) with
      | some k => .error k
      | none => .ok (st.pass W F p u b) := by
  have hm : meetsNew W F p u = (!inSpan p.oldSpan u.num && meetsCheckBay W F p u b) := by
    rw [meetsNew, hb]; rfl
  cases hold : inSpan p.oldSpan u.num with
  | true =>
    have hpass : st.pass W F p u b = { st with passed := u :: st.passed } := by
      simp [WalkState.pass, hm, hold]
    simp only [testUnit, hb, hold, if_true, oldSpanBlocker, checkOrder, find?_cons_if, failsCheck, hm, hpass,
      Bool.not_true, Bool.false_and, Bool.false_eq_true, if_false, List.find?_nil] <;>
      split_ifs <;> rfl
  | false =>
    have hpass : passCheck W F p u b st = if meetsNew W F p u && st.met.any (fun n => n != u.bay) then none
        else some (st.pass W F p u b) := by
      simp only [passCheck, WalkState.pass, hm, hold, Bool.not_false, Bool.true_and]
      cases meetsCheckBay W F p u b with
      | false => rfl
      | true =>
        cases hmet : st.met with
        | none => rfl
        | some n => by_cases hn : n = u.bay <;> simp [hn]
    cases hsecond : (meetsNew W F p u && st.met.any (fun n => n != u.bay)) <;> rw [hsecond] at hpass <;>
      simp only [testUnit, hb, hold, Bool.false_eq_true, if_true, if_false, freshBlocker, checkOrder, find?_cons_if,
        failsCheck, Bool.not_false, Bool.true_and, decide_eq_true_eq, List.find?_nil, hpass, hsecond] <;>
      split_ifs <;> rfl

theorem find?_eq_some_takeWhile {α : Type} [DecidableEq α] {f : α → Bool} {l : List α} {k : α} (h : l.find? f = some k) :
    f k = true ∧ ∀ j ∈ l.takeWhile (fun x => x != k), f j = false := by
  refine ⟨List.find?_some h, ?_⟩
  induction l with
  | nil => cases h
  | cons a l ih =>
    intro j hj
    rw [find?_cons_if] at h
    split at h
    · cases h
      simp at hj
    · rename_i ha
      have hne : (a != k) = true := by
        rw [bne_iff_ne]
        rintro rfl
        exact ha (List.find?_some h)
      rw [List.takeWhile_cons, if_pos hne] at hj
      rcases List.mem_cons.mp hj with rfl | hj
      · simpa using ha
      · exact ih h j hj

theorem mem_checkOrder (k : Blocker) : k ∈ checkOrder := by cases k <;> decide

/-- A unit that passes fails no check. -/
theorem testUnit_ok {others : List TrackUnit} {st st' : WalkState} {u : TrackUnit} {b : Bay}
    (hb : (runOf W F p.car).bay u.bay = some b) (h : testUnit W F p others u st = .ok st') :
    st' = st.pass W F p u b ∧ ∀ k, failsCheck W F p others st.met u b k = false := by
  rw [testUnit_eq W F p others st hb] at h
  split at h
  · cases h
  · rename_i hf
    exact ⟨(Except.ok.inj h).symm, fun k => by simpa using List.find?_eq_none.mp hf k (mem_checkOrder k)⟩

/-- A unit that stops the walk fails the check named and none before it. -/
theorem testUnit_error {others : List TrackUnit} {st : WalkState} {u : TrackUnit} {b : Bay} {k : Blocker}
    (hb : (runOf W F p.car).bay u.bay = some b) (h : testUnit W F p others u st = .error k) :
    failsCheck W F p others st.met u b k = true ∧
      ∀ j ∈ checkOrder.takeWhile (fun x => x != k), failsCheck W F p others st.met u b j = false := by
  rw [testUnit_eq W F p others st hb] at h
  split at h
  · rename_i k' hf
    cases h
    exact find?_eq_some_takeWhile hf
  · cases h

/-! ### How far a walk has come -/

/-- The bay of the first unit of a list that meets a check bay. -/
def firstMet (us : List TrackUnit) : Option Nat := (us.find? (meetsNew W F p)).map TrackUnit.bay

/-- The confirm point short of bay `n`. -/
def confirmAt (n : Nat) : Option Int := ((runOf W F p.car).bay n).map (confirmShortOf (runOf W F p.car) p.dir n)

/-- The walk has passed the units `done`, in this order, and stands in state `st`. -/
structure Walked (others done : List TrackUnit) (st : WalkState) : Prop where
  passed : st.passed = done.reverse
  met : st.met = p.met.or (firstMet W F p done)
  confirm : st.confirm = if p.met = none then (firstMet W F p done).bind (confirmAt W F p) else none
  passes : ∀ u ∈ done, ∃ b, (runOf W F p.car).bay u.bay = some b ∧ ∀ k, failsCheck W F p others st.met u b k = false
  kept : ∀ u ∈ done, meetsNew W F p u = true → st.met = some u.bay

theorem firstMet_append (us : List TrackUnit) (u : TrackUnit) : firstMet W F p (us ++ [u]) =
    (firstMet W F p us).or (if meetsNew W F p u then some u.bay else none) := by
  rw [firstMet, firstMet, List.find?_append, find?_cons_if, List.find?_nil]
  cases us.find? (meetsNew W F p) <;> cases meetsNew W F p u <;> rfl

theorem walked_start (others : List TrackUnit) :
    Walked W F p others [] { met := p.met, confirm := none, passed := [] } where
  passed := rfl
  met := (Option.or_none).symm
  confirm := by split <;> rfl
  passes u hu := absurd hu List.not_mem_nil
  kept u hu := absurd hu List.not_mem_nil

variable {W F p}

/-- A check bay once met stays the one met. -/
theorem WalkState.met_pass {st : WalkState} {u : TrackUnit} {b : Bay} {n : Nat}
    (hm : st.met = some n) : (st.pass W F p u b).met = some n := by
  simp only [WalkState.pass, hm, Option.some_or, ite_self]

/-- A unit of a check bay that passes CHECK leaves its own bay met. -/
theorem WalkState.met_pass_self {others : List TrackUnit} {st : WalkState} {u : TrackUnit} {b : Bay}
    (hm : meetsNew W F p u = true) (hf : failsCheck W F p others st.met u b .check = false) :
    (st.pass W F p u b).met = some u.bay := by
  simp only [failsCheck, hm, Bool.true_and] at hf
  cases hs : st.met with
  | none => simp [WalkState.pass, hs, hm]
  | some n =>
    rw [hs] at hf
    have hn : n = u.bay := by simpa using hf
    simp [WalkState.pass, hs, hm, hn]

theorem Walked.step {others done : List TrackUnit} {st : WalkState} {u : TrackUnit} {b : Bay}
    (h : Walked W F p others done st) (hb : (runOf W F p.car).bay u.bay = some b)
    (hf : ∀ k, failsCheck W F p others st.met u b k = false) :
    Walked W F p others (done ++ [u]) (st.pass W F p u b) where
  passed := by rw [WalkState.pass, h.passed, List.reverse_append]; rfl
  met := by
    rw [firstMet_append, ← Option.or_assoc, ← h.met, WalkState.pass]
    cases meetsNew W F p u with
    | true => rfl
    | false => exact (Option.or_none).symm
  confirm := by
    have hmet := h.met
    rw [firstMet_append, WalkState.pass, h.confirm]
    cases hmu : meetsNew W F p u with
    | false => simp
    | true =>
      cases hs : st.met with
      | none =>
        obtain ⟨hp, hfm⟩ := Option.or_eq_none_iff.mp (hmet.symm.trans hs)
        simp [hp, hfm, confirmAt, hb]
      | some n =>
        by_cases hp : p.met = none
        · rw [hp, Option.none_or, hs] at hmet
          simp [hp, ← hmet]
        · simp [hp]
  passes v hv := by
    rcases List.mem_append.mp hv with hv | hv
    · obtain ⟨c, hc, hfc⟩ := h.passes v hv
      refine ⟨c, hc, fun k => ?_⟩
      by_cases hk : k = .check
      · subst hk
        cases hmv : meetsNew W F p v with
        | false => simp only [failsCheck, hmv, Bool.false_and]
        | true =>
          rw [← hfc .check]
          simp only [failsCheck, WalkState.met_pass (h.kept v hv hmv), h.kept v hv hmv]
      · rw [← hfc k]
        exact failsCheck_congr W F p others hk _ _ v c
    · cases List.mem_singleton.mp hv
      refine ⟨b, hb, fun k => ?_⟩
      by_cases hk : k = .check
      · subst hk
        cases hmv : meetsNew W F p u with
        | false => simp only [failsCheck, hmv, Bool.false_and]
        | true => simp [failsCheck, WalkState.met_pass_self hmv (hf .check)]
      · rw [← hf k]
        exact failsCheck_congr W F p others hk _ _ u b
  kept v hv hmv := by
    rcases List.mem_append.mp hv with hv | hv
    · exact WalkState.met_pass (h.kept v hv hmv)
    · cases List.mem_singleton.mp hv
      exact WalkState.met_pass_self hmv (hf .check)

/-- Every unit of a run lies in a bay of it. -/
theorem unitsFrom_bay {bay num : Nat} {start : Int} {bs : List Bay} {u : TrackUnit} (h : u ∈ unitsFrom bay num start bs) :
    ∃ (k : Nat) (b : Bay), u.bay = bay + k ∧ bs[k]? = some b := by
  induction bs generalizing bay num start with
  | nil => cases h
  | cons c bs ih =>
    rcases List.mem_append.mp h with h | h
    · exact ⟨0, c, (bayUnits_bounds h).1, rfl⟩
    · obtain ⟨k, b, hk, hb⟩ := ih h
      exact ⟨k + 1, b, by rw [hk, Nat.add_assoc, Nat.add_comm 1], hb⟩

theorem Run.bay_of_unit {r : Run} {u : TrackUnit} (h : u ∈ r.units) : ∃ b, r.bay u.bay = some b := by
  unfold Run.units at h
  split at h
  · obtain ⟨k, b, hk, hb⟩ := unitsFrom_bay h
    exact ⟨b, by rw [Run.bay, hk, Nat.zero_add]; exact hb⟩
  · cases h

/-- The walk passes units up to the first that fails, and names the check it fails. -/
theorem walkUnits_spec (others : List TrackUnit) {us done : List TrackUnit} {st : WalkState}
    (hus : ∀ u ∈ us, ∃ b, (runOf W F p.car).bay u.bay = some b) (h : Walked W F p others done st) :
    ∃ passed rest, us = passed ++ rest ∧ Walked W F p others (done ++ passed) (walkUnits W F p others us st).1 ∧
      match (walkUnits W F p others us st).2 with
      | none => rest = []
      | some k => ∃ u more b, rest = u :: more ∧ (runOf W F p.car).bay u.bay = some b ∧
          failsCheck W F p others (walkUnits W F p others us st).1.met u b k = true ∧
          ∀ j ∈ checkOrder.takeWhile (fun x => x != k),
            failsCheck W F p others (walkUnits W F p others us st).1.met u b j = false := by
  induction us generalizing done st with
  | nil => exact ⟨[], [], rfl, by simpa [walkUnits] using h, rfl⟩
  | cons u us ih =>
    obtain ⟨b, hb⟩ := hus u List.mem_cons_self
    cases ht : testUnit W F p others u st with
    | error k =>
      simp only [walkUnits, ht]
      exact ⟨[], u :: us, rfl, by simpa using h, u, us, b, rfl, hb, testUnit_error W F p hb ht⟩
    | ok st' =>
      obtain ⟨rfl, hf⟩ := testUnit_ok W F p hb ht
      obtain ⟨passed, rest, hsplit, hw, hstop⟩ := ih (fun v hv => hus v (List.mem_cons_of_mem _ hv)) (h.step hb hf)
      simp only [walkUnits, ht]
      exact ⟨u :: passed, rest, by rw [hsplit]; rfl, by simpa using hw, hstop⟩

end Walk

end Sys2Proof.Machine
end

section
namespace Sys2Proof.Machine

/-! ## What each check of a walk asks -/

section Checks

variable {W : World} {F : Fleet} {p : WalkPlan}

theorem conditionFails_iff (b : Bay) :
    conditionFails W b = true ↔ ∃ n, b.condition = some n ∧ W.conditions[n] = false := by
  unfold conditionFails
  cases b.condition with
  | none => simp
  | some n => simp

theorem zoneHeldByOther_iff (c : CarId) (b : Bay) :
    zoneHeldByOther W F c b = true ↔ ∃ z ∈ W.map.chain b, ∃ d, F.holders[z] = some d ∧ d ≠ c := by
  simp only [zoneHeldByOther, List.any_eq_true]
  refine exists_congr fun z => and_congr_right fun _ => ?_
  cases F.holders[z] <;> simp

theorem windFails_iff : p.windFails W F = true ↔ (runOf W F p.car).exposed = true ∧
    ((W.wind.state ∈ [.gale, .unknown, .storm] ∧ (runOf W F p.car).closeDir ≠ p.dir) ∨
      (W.wind.state = .storm ∧ p.cls ≠ .emergency)) := by
  simp only [WalkPlan.windFails, Bool.and_eq_true]
  refine and_congr_right fun _ => ?_
  cases W.wind.state <;> simp [windRefuses, opening]

theorem maintFails_iff : p.maintFails W F = true ↔
    (p.cls ∈ [.auto, .operator] ∧ W.windows[(F.cars[p.car]).cfg.run] = true) ∨
      (p.cls = .maintenance ∧ W.windows[(F.cars[p.car]).cfg.run] = false) := by
  rw [WalkPlan.maintFails]
  cases p.cls <;> simp [maintRefuses]

/-- Unit `u` of bay `b` fails the check, `met` being the check bay met (R70 to R72, R126). -/
def FailsCheck (W : World) (F : Fleet) (p : WalkPlan) (met : Option Nat) (u : TrackUnit) (b : Bay) : Blocker → Prop
  | .service => b.inService = false
  | .ceiling => inSpan p.oldSpan u.num = false ∧ W.map.ceiling b = 0
  | .access => inSpan p.oldSpan u.num = false ∧ W.map.access b p.cls = .deny
  | .condition => ∃ n, b.condition = some n ∧ W.conditions[n] = false
  | .wind => (runOf W F p.car).exposed = true ∧
      ((W.wind.state ∈ [.gale, .unknown, .storm] ∧ (runOf W F p.car).closeDir ≠ p.dir) ∨
        (W.wind.state = .storm ∧ p.cls ≠ .emergency))
  | .maint => (p.cls ∈ [.auto, .operator] ∧ W.windows[(F.cars[p.car]).cfg.run] = true) ∨
      (p.cls = .maintenance ∧ W.windows[(F.cars[p.car]).cfg.run] = false)
  | .zone => inSpan p.oldSpan u.num = false ∧ ∃ z ∈ W.map.chain b, ∃ d, F.holders[z] = some d ∧ d ≠ p.car
  | .occupied => inSpan p.oldSpan u.num = false ∧ F.reserves p.car u = false ∧
      ∃ v ∈ othersClaims W F p.car, unitsConflict (runOf W F p.car).clearance u v = true
  | .check => meetsNew W F p u = true ∧ ∃ n, met = some n ∧ n ≠ u.bay

theorem failsCheck_iff (met : Option Nat) (u : TrackUnit) (b : Bay) (k : Blocker) :
    failsCheck W F p (othersClaims W F p.car) met u b k = true ↔ FailsCheck W F p met u b k := by
  cases k with
  | service => simp [failsCheck, FailsCheck]
  | ceiling => simp [failsCheck, FailsCheck]
  | access => simp [failsCheck, FailsCheck]
  | condition => exact conditionFails_iff b
  | wind => exact windFails_iff
  | maint => exact maintFails_iff
  | zone => simp only [failsCheck, FailsCheck, Bool.and_eq_true, Bool.not_eq_true', zoneHeldByOther_iff]
  | occupied => simp [failsCheck, FailsCheck, conflictsAny]
  | check => simp [failsCheck, FailsCheck, Option.any_eq_true]

theorem failsCheck_false_iff (met : Option Nat) (u : TrackUnit) (b : Bay) (k : Blocker) :
    failsCheck W F p (othersClaims W F p.car) met u b k = false ↔ ¬FailsCheck W F p met u b k := by
  rw [← Bool.not_eq_true, failsCheck_iff]

/-- The result of a walk, read off the units tested in turn. -/
theorem walk_eq (W : World) (F : Fleet) (p : WalkPlan) :
    let out := walkUnits W F p (othersClaims W F p.car) (walkPath (runOf W F p.car) p)
      { met := p.met, confirm := none, passed := [] }
    (walk W F p).blocker = out.2 ∧ (walk W F p).confirm = out.1.confirm ∧ (walk W F p).passed = out.1.passed ∧
      (walk W F p).limit = match out.2 with
        | none => p.target
        | some _ => (out.1.passed.head?.map (fun u => u.far p.dir)).getD p.base := by
  intro out
  rcases h : out with ⟨st, _ | k⟩
  · have h' : walk W F p = { limit := p.target, blocker := none, confirm := st.confirm, passed := st.passed } := by
      rw [walk]
      simp only [out] at h
      simp only [h]
    rw [h']
    exact ⟨rfl, rfl, rfl, rfl⟩
  · have h' : walk W F p = { limit := (st.passed.head?.map (fun u => u.far p.dir)).getD p.base, blocker := some k,
                             confirm := st.confirm, passed := st.passed } := by
      rw [walk]
      simp only [out] at h
      simp only [h]
      cases st.passed <;> rfl
    rw [h']
    exact ⟨rfl, rfl, rfl, rfl⟩

/-- The bays of a walk's path are there. -/
theorem walkPath_bay {u : TrackUnit} (h : u ∈ walkPath (runOf W F p.car) p) :
    ∃ b, (runOf W F p.car).bay u.bay = some b := by
  have hu : u ∈ (runOf W F p.car).units := by
    unfold walkPath inOrder at h
    cases hd : p.dir <;> rw [hd] at h
    · exact List.mem_of_mem_filter h
    · exact List.mem_of_mem_filter (List.mem_reverse.mp h)
  exact Run.bay_of_unit hu

end Checks

/-- Settles O28: the units tested in turn, with the check bay met and the confirm point as they stand at the end. -/
theorem grantWalkPassesChecks : Obligations.GrantWalkPassesChecks := by
  intro W F p r res path old meets firstMet' opens windowOpen order fails
  obtain ⟨passed, rest, hsplit, hw, hstop⟩ := walkUnits_spec (othersClaims W F p.car)
    (fun u hu => walkPath_bay (W := W) (F := F) (p := p) hu) (walked_start W F p (othersClaims W F p.car))
  obtain ⟨hblk, hconf, hpass, hlimit⟩ := walk_eq W F p
  rw [List.nil_append] at hw
  generalize walkUnits W F p (othersClaims W F p.car) (walkPath (runOf W F p.car) p)
    { met := p.met, confirm := none, passed := [] } = out at *
  have hpassed : res.passed.reverse = passed := by rw [hpass, hw.passed, List.reverse_reverse]
  have hfirst : firstMet' = firstMet W F p passed := congrArg (fun us => firstMet W F p us) hpassed
  have hmet : p.met.or firstMet' = out.1.met := by rw [hfirst, hw.met]
  have hfails : ∀ u b k, fails u b k ↔ FailsCheck W F p out.1.met u b k := fun u b k => by
    rw [← hmet]
    cases k <;> exact Iff.rfl
  have hpath : path = passed ++ rest := hsplit
  refine ⟨⟨rest, by rw [hpassed, hpath]⟩, fun hn => ?_, fun hn => ?_, fun k hk => ?_, fun u hu => ?_, fun u hu hm => ?_, ?_⟩
  · rw [hblk.symm.trans hn] at hstop hlimit
    rw [hpassed, hpath, hstop, List.append_nil]
    exact ⟨rfl, hlimit⟩
  · obtain ⟨k, hk⟩ := Option.ne_none_iff_exists'.mp hn
    rw [hblk.symm.trans hk] at hlimit
    rw [hlimit, hpass]
  · rw [hblk.symm.trans hk] at hstop
    obtain ⟨u, more, b, hrest, hb, hf, hbefore⟩ := hstop
    refine ⟨u, b, ?_, hb, (hfails u b k).mpr ((failsCheck_iff _ _ _ _).mp hf), fun j hj => ?_⟩
    · rw [← List.length_reverse, hpassed, hpath, hrest, List.getElem?_append_right (le_refl _), Nat.sub_self]
      rfl
    · rw [hfails]
      exact (failsCheck_false_iff _ _ _ _).mp (hbefore j hj)
  · obtain ⟨b, hb, hf⟩ := hw.passes u (by rw [← hpassed]; exact List.mem_reverse.mpr hu)
    exact ⟨b, hb, fun k => by rw [hfails]; exact (failsCheck_false_iff _ _ _ _).mp (hf k)⟩
  · rw [hmet]
    exact hw.kept u (by rw [← hpassed]; exact List.mem_reverse.mpr hu) hm
  · rw [hconf, hw.confirm, ← hfirst]
    rfl

end Sys2Proof.Machine
end

section
namespace Sys2Proof.Machine

/-! ## The supervising warrant (R44) -/

section Supervising

variable {W W' : World} {F G : Fleet} {c : CarId}

theorem live_congr (hs : G.slots = F.slots) : G.live = F.live := by
  funext x
  simp only [Fleet.live, hs]

/-- The current warrant is read off the carriage's handle and the slots. -/
theorem currentOf_congr (hcur : (G.cars[c]).current = (F.cars[c]).current) (hs : G.slots = F.slots) :
    G.currentOf c = F.currentOf c := by
  rw [Fleet.currentOf, Fleet.currentOf, hcur, live_congr hs]

/-- The warrant on top of the stack is read off the stack and the slots. -/
theorem topOf_congr (hst : (G.cars[c]).stack = (F.cars[c]).stack) (hs : G.slots = F.slots) :
    G.topOf c = F.topOf c := by
  rw [Fleet.topOf, Fleet.topOf, hst, live_congr hs]

/-- The warrant that supervises is read off the handles, the hold set and the slots. -/
theorem supervising_congr (hcur : (G.cars[c]).current = (F.cars[c]).current)
    (hst : (G.cars[c]).stack = (F.cars[c]).stack)
    (hrev : (G.cars[c]).holds.reversal = (F.cars[c]).holds.reversal) (hs : G.slots = F.slots) :
    G.supervising c = F.supervising c := by
  rw [Fleet.supervising, Fleet.supervising, Fleet.inRunOut, Fleet.inRunOut, hrev, topOf_congr hst hs,
    currentOf_congr hcur hs]

theorem supervising_of_not_reversal (h : (F.cars[c]).holds.reversal = false) : F.supervising c = F.currentOf c := by
  rw [Fleet.supervising, Fleet.inRunOut, h]
  rfl

theorem currentOf_none (h : (F.cars[c]).current = none) : F.currentOf c = none := by
  simp only [Fleet.currentOf, h]

theorem topOf_none (h : (F.cars[c]).stack = []) : F.topOf c = none := by
  simp only [Fleet.topOf, h, List.getLast?_nil]

/-! ## The record of a report (R32, stages 1 to 4) -/

/-- The direction in which a report of speed `speed` is supervised (R44). -/
theorem supervisionDir_eq (F : Fleet) (c : CarId) (speed : Int) : F.supervisionDir c speed =
    match F.supervising c with
    | some (_, w) => some w.dir
    | none => if speed.natAbs ≤ 5 then none else if 0 < speed then some .up else some .down := by
  unfold Fleet.supervisionDir speedDir standstill
  cases F.supervising c with
  | none => simp only [decide_eq_true_eq]
  | some x => rfl

/-- The record of the carriage as stages 1 to 4 leave it. -/
def recordedCar (W : World) (F : Fleet) (c : CarId) (positions : List Nat) (speed : Int) : Carriage :=
  { F.cars[c] with
    last := some { positions := positions, speed := speed, tick := W.now }
    pose := some (poseOf (F.cars[c]).cfg positions)
    state := stateBySpeed (F.cars[c]).state speed.natAbs
    front := frontAt (F.cars[c]).cfg (poseOf (F.cars[c]).cfg positions) speed.natAbs (F.supervisionDir c speed) }

/-- Stages 1 to 4 write the carriage's record and nothing else. -/
theorem recordReport_eq (W : World) (F : Fleet) (c : CarId) (positions : List Nat) (speed : Int) :
    recordReport W F c positions speed = { F with cars := F.cars.set c (recordedCar W F c positions speed) } := by
  let f : Carriage → Carriage := fun k => { k with
    last := some { positions := positions, speed := speed, tick := W.now }
    pose := some (poseOf k.cfg positions)
    state := stateBySpeed k.state speed.natAbs }
  have hf : (F.modCar c f).cars[c] = f F.cars[c] := Fleet.modCar_get_self F c f
  have hsup : (F.modCar c f).supervising c = F.supervising c :=
    supervising_congr (by rw [hf]) (by rw [hf]) (by rw [hf]) rfl
  have hfront : (F.modCar c f).frontNow c =
      frontAt (F.cars[c]).cfg (poseOf (F.cars[c]).cfg positions) speed.natAbs (F.supervisionDir c speed) := by
    simp only [Fleet.frontNow, hf, f, Fleet.supervisionDir, hsup]
  have hrec : recordReport W F c positions speed =
      F.modCar c (fun k => { f k with front := (F.modCar c f).frontNow c }) :=
    Fleet.modCar_modCar F c f (fun k => { k with front := (F.modCar c f).frontNow c })
  rw [hrec, hfront]
  rfl

end Supervising

/-! ## Marks (R21) -/

/-- Marks are set on the bays touched and the others are kept. -/
theorem markBays_get (nums : List Nat) (stopped : Bool) (b : Nat) (bays : List Bay) (i : Nat) :
    (markBays nums stopped b bays)[i]? = bays[i]?.map (fun bay => if b + i ∈ nums then
      { bay with traversed := true, stoppedIn := bay.stoppedIn || stopped } else bay) := by
  induction bays generalizing b i with
  | nil => rfl
  | cons bay bays ih =>
    cases i with
    | zero => rfl
    | succ i =>
      rw [markBays, List.getElem?_cons_succ, List.getElem?_cons_succ, ih, Nat.add_right_comm, Nat.add_assoc]

/-- A standstill report marks the bays it touches traversed and stopped-in. -/
theorem markBays_stopped (nums : List Nat) (bays : List Bay) : markBays nums true 0 bays =
    bays.mapIdx (fun b bay => if b ∈ nums then { bay with traversed := true, stoppedIn := true } else bay) := by
  refine List.ext_getElem? fun i => ?_
  rw [markBays_get, List.getElem?_mapIdx]
  simp only [Bool.or_true, Nat.zero_add]

/-! ## The envelope checks (R54 to R60) -/

section Envelope

variable {W : World} {F : Fleet} {c : CarId}

theorem lead_of_pose {k : Carriage} {p : Pose} (h : k.pose = some p) (d : Dir) : k.lead d = p.lead d := by
  simp only [Carriage.lead, h]

theorem envelopeCheck_none (h : F.supervising c = none) (speed : Int) :
    envelopeCheck W F c speed = if 5 < speed.natAbs then some .unwarranted else none := by
  simp only [envelopeCheck, h, standstill, decide_eq_true_eq]
  by_cases hv : speed.natAbs ≤ 5
  · rw [if_pos hv, if_neg (Nat.not_lt.mpr hv)]
  · rw [if_neg hv, if_pos (Nat.not_le.mp hv)]

theorem envelopeCheck_up {i : SlotId} {w : Warrant} {p : Pose} {f : Int} (h : F.supervising c = some (i, w))
    (hp : (F.cars[c]).pose = some p) (hf : (F.cars[c]).front = some f) (hd : w.dir = .up) (speed : Int) :
    envelopeCheck W F c speed =
      if w.confirm.getD w.limit < p.upper then some .overrun else if w.confirm.getD w.limit < f then some .brakeCurve
      else if effectiveCeiling W F c w + tolerance (effectiveCeiling W F c w) < speed.natAbs then some .overspeed
      else if speed < -5 ∧ (F.cars[c]).holds.reversal = false then some .reverse else none := by
  have hl : (F.cars[c]).lead .up = p.upper := lead_of_pose hp .up
  simp only [envelopeCheck, h, warrantCheck, hd, hl, hf, Option.getD_some, beyond, against, Warrant.effectiveLimit,
    Fleet.inRunOut, decide_eq_true_eq, Bool.and_eq_true, Bool.not_eq_true']

theorem envelopeCheck_down {i : SlotId} {w : Warrant} {p : Pose} {f : Int} (h : F.supervising c = some (i, w))
    (hp : (F.cars[c]).pose = some p) (hf : (F.cars[c]).front = some f) (hd : w.dir = .down) (speed : Int) :
    envelopeCheck W F c speed =
      if p.lower < w.confirm.getD w.limit then some .overrun else if f < w.confirm.getD w.limit then some .brakeCurve
      else if effectiveCeiling W F c w + tolerance (effectiveCeiling W F c w) < speed.natAbs then some .overspeed
      else if 5 < speed ∧ (F.cars[c]).holds.reversal = false then some .reverse else none := by
  have hl : (F.cars[c]).lead .down = p.lower := lead_of_pose hp .down
  simp only [envelopeCheck, h, warrantCheck, hd, hl, hf, Option.getD_some, beyond, against, Warrant.effectiveLimit,
    Fleet.inRunOut, decide_eq_true_eq, Bool.and_eq_true, Bool.not_eq_true']

end Envelope

end Sys2Proof.Machine
end

section
namespace Sys2Proof.Machine

/-! ## The stages of a report (R32) -/

section Stages

variable {W : World} {F : Fleet} {c : CarId}

/-- The world with other bays on a run. -/
def World.withBays (W : World) (i : RunId) (bays : List Bay) : World :=
  { W with map := W.map.setRun i { W.map.runs[i] with bays := bays } }

/-- The world with the marks of a report set depends on the carriage's run and present extent alone. -/
theorem setMarks_sameTrack (W : World) (F : Fleet) (c : CarId) (v : Nat) : SameTrack W.map (setMarks W F c v).map :=
  .setMarks W F c v

theorem takeReport_passed {positions : List Nat} {speed : Int}
    (h : trackCheck W (recordReport W F c positions speed) c = none) :
    takeReport W F c positions speed =
      (let F4 := recordReport W F c positions speed
       let W6 := setMarks W F4 c speed.natAbs
       (W6, endMute W6 (endRunOut W6 (supervise W6 (rezone W6 F4 c) c speed) c speed.natAbs) c)) := by
  simp only [takeReport, h]

theorem takeReport_tripped {positions : List Nat} {speed : Int} {kind : TripKind}
    (h : trackCheck W (recordReport W F c positions speed) c = some kind) :
    takeReport W F c positions speed =
      (let F5 := trip W (recordReport W F c positions speed) c kind speed.natAbs false
       let W6 := setMarks W F5 c speed.natAbs
       (W6, endMute W6 (endRunOut W6 (stopStage W6 (rezone W6 F5 c) c speed.natAbs) c speed.natAbs) c)) := by
  simp only [takeReport, h]

/-- The track checks of a carriage with an extent, in their order (R36 to R38). -/
theorem trackCheck_eq {p : Pose} (hp : (F.cars[c]).pose = some p) : trackCheck W F c =
    if (F.cars[c]).cfg.skewLimit < p.skew then some .skew
    else if p.lower < 0 ∨ (runOf W F c).last < p.upper then some .offRun
    else if intrusionFails W F c then some .intrusion
    else none := by
  simp only [trackCheck, skewFails, offRunFails, hp, decide_eq_true_eq]

/-- No unit of the present extent meets another carriage's claim or a zone held by another (R38). -/
theorem intrusionFails_eq_false
    (hu : ∀ u ∈ occupied W F c, ∀ x ∈ othersClaims W F c, unitsConflict (runOf W F c).clearance u x = false)
    (hz : ∀ z ∈ extentZones W F c, ∀ d, F.holders[z] = some d → d = c) : intrusionFails W F c = false := by
  rw [intrusionFails, List.any_eq_false]
  intro u hmem
  have hconflict : conflictsAny (runOf W F c).clearance u (othersClaims W F c) = false :=
    List.any_eq_false.mpr fun x hx => by rw [hu u hmem x hx]; exact Bool.false_ne_true
  rw [hconflict, Bool.false_or]
  cases hb : (runOf W F c).bay u.bay with
  | none => exact Bool.false_ne_true
  | some b =>
    intro h
    obtain ⟨z, hzb, d, hd, hne⟩ := (zoneHeldByOther_iff c b).mp h
    refine hne (hz z ?_ d hd)
    refine List.mem_flatMap.mpr ⟨u, hmem, ?_⟩
    rw [hb]
    exact hzb

/-- A carriage that no warrant supervises and that stands goes through supervision untouched. -/
theorem supervise_unsupervised (h : F.supervising c = none) (hc : F.currentOf c = none) {speed : Int}
    (hv : speed.natAbs ≤ 5) : supervise W F c speed = F := by
  rw [supervise, envelopeCheck_none h, if_neg (Nat.not_lt.mpr hv)]
  simp only [warn, h, progress, hc]

theorem endRunOut_of_not_reversal (h : (F.cars[c]).holds.reversal = false) (v : Nat) : endRunOut W F c v = F := by
  rw [endRunOut, Fleet.inRunOut, h, Bool.and_false]
  rfl

theorem endMute_of_not_mute (h : (F.cars[c]).mute = false) : endMute W F c = F := by
  rw [endMute, h]
  rfl

theorem stateBySpeed_eq (old : CarState) (v : Nat) :
    stateBySpeed old v = if old = .tripped then .tripped else if v ≤ 5 then .standing else .moving := by
  cases old <;> simp [stateBySpeed, standstill]

theorem acceptsReport_iff (k : Carriage) (q : ReportBody) : acceptsReport k q = true ↔
    k.state ≠ .unconfigured ∧ q.positions.length = k.cfg.offsets.length ∧ ∀ x ∈ q.positions, x ≤ 1048575 := by
  simp [acceptsReport, Carriage.configured, and_assoc]

/-- What an accepted report does and answers (R30 to R32). -/
theorem reportRule_accepted (o : Origin) {q : ReportBody} {r : Records} (hc : q.carriage = c.val)
    (ha : acceptsReport r.fleet.cars[c] q = true) : reportRule o q r =
      (let out := takeReport r.world r.fleet c q.positions (clampSpeed q.speed)
       ({ r with world := out.1, fleet := out.2 },
        { status := if clampSpeed q.speed = q.speed then .done else .clamped, body := reportReply out.2.cars[c] })) := by
  rw [reportRule, hc, inTable_val]
  exact if_pos ha

end Stages

/-- Settles O26. -/
theorem envelopeChecksInOrder : Obligations.EnvelopeChecksInOrder := by
  refine ⟨fun F c => ?_, fun W F c i w p f speed => ⟨fun h hp hf hd => envelopeCheck_up h hp hf hd speed,
    fun h hp hf hd => envelopeCheck_down h hp hf hd speed, fun h => envelopeCheck_none h speed⟩, ?_⟩
  · have hcur : F.currentOf c = (F.cars[c]).current.bind (fun x => (F.live x).map (fun w => (x.slot, w))) := by
      unfold Fleet.currentOf
      cases (F.cars[c]).current <;> rfl
    refine ⟨fun hr => (supervising_of_not_reversal hr).trans hcur, fun hr hs => ?_, fun below x w hr hs hw => ?_⟩
    · rw [Fleet.supervising, Fleet.inRunOut, hr, if_pos rfl, topOf_none hs]
      exact hcur
    · have htop : F.topOf c = some (x.slot, w) := by
        simp only [Fleet.topOf, hs, List.getLast?_concat, hw, Option.map_some]
      rw [Fleet.supervising, Fleet.inRunOut, hr, if_pos rfl, htop]
  · intro p f rest s q c h hx hq W F k run pz F1 hconf htrip hmute hrev hcur hlen hpos hv hskew hlow hup hconflict hzones
    have hsup : F.supervising c = none := (supervising_of_not_reversal hrev).trans (currentOf_none hcur)
    have hspeed : clampSpeed q.speed = q.speed := by unfold clampSpeed; omega
    have hcar : recordedCar W F c q.positions q.speed = { k with
        last := some { positions := q.positions, speed := q.speed, tick := W.now }, pose := some pz, state := .standing
        front := none } := by
      rw [recordedCar, supervisionDir_eq, hsup, stateBySpeed_eq, if_neg htrip, if_pos hv]
      simp only [if_pos hv]
      rfl
    have hF1 : recordReport W F c q.positions q.speed = F1 := by rw [recordReport_eq, hcar]
    have hself : F1.cars[c] = { k with
        last := some { positions := q.positions, speed := q.speed, tick := W.now }, pose := some pz, state := .standing
        front := none } := by simp [F1]
    have hrun : runOf W F1 c = run := by simp only [runOf, hself]; rfl
    have hcheck : trackCheck W F1 c = none := by
      rw [trackCheck_eq (p := pz) (by rw [hself]), hself, hrun, if_neg (Nat.not_lt.mpr hskew), if_neg (by omega),
        intrusionFails_eq_false (by rw [hrun]; exact hconflict) hzones]
      rfl
    let W6 := setMarks W F1 c q.speed.natAbs
    let G := rezone W6 F1 c
    have hG : G.cars[c] = F1.cars[c] := by simp only [G, rezone_cars]
    have hGcur : G.currentOf c = none := currentOf_none (by rw [hG, hself]; exact hcur)
    have hGrev : (G.cars[c]).holds.reversal = false := by rw [hG, hself]; exact hrev
    have hout : takeReport W F c q.positions q.speed = (W6, G) := by
      rw [takeReport_passed (by rw [hF1]; exact hcheck), hF1]
      simp only []
      rw [supervise_unsupervised ((supervising_of_not_reversal hGrev).trans hGcur) hGcur hv,
        endRunOut_of_not_reversal hGrev, endMute_of_not_mute (by rw [hG, hself]; exact hmute)]
    refine ⟨markBays ((occupied W F1 c).map TrackUnit.bay) true 0 run.bays, G, h.answers hx ?_, markBays_stopped _ _, ?_⟩
    · have hW6 : W6 = W.withBays k.cfg.run (markBays ((occupied W F1 c).map TrackUnit.bay) true 0 run.bays) := by
        simp only [W6, setMarks, hself, standstill, hv, decide_true]
        rfl
      rw [reportRule_accepted _ hq ((acceptsReport_iff _ _).mpr ⟨hconf, hlen, hpos⟩), hspeed, hout, hW6]
      simp only [if_true, hG, hself, reportReply, hcur]
      rfl
    · exact ⟨rezone_cars _ _ _, rezone_slots _ _ _, rezone_occupancy _ _ _, rezone_notices _ _ _, fun z => by
        rw [← (setMarks_sameTrack W F1 c q.speed.natAbs).reachedZones]
        exact rezone_rezoned W6 F1 c z⟩

end Sys2Proof.Machine
end

section
namespace Sys2Proof.Machine

/-! ## restart (R93, R163, R178) -/

section Restart

variable {W : World} {F G U : Fleet} {c : CarId} {i : SlotId}

/-- A change that the record does not show changes nothing. -/
theorem Fleet.modCar_eq_self {f : Carriage → Carriage} (h : f F.cars[c] = F.cars[c]) : F.modCar c f = F := by
  have hcars : (F.modCar c f).cars = F.cars := Vector.ext fun d hd => by
    have := Fleet.modCar_get F c ⟨d, hd⟩ f
    rw [h] at this
    refine this.trans ?_
    split
    · rename_i e; rw [← e]; rfl
    · rfl
  exact Fleet.eq_of_records hcars (fun _ => rfl) rfl rfl rfl

/-- The braking front of a carriage that no warrant supervises. -/
def unsupervisedFront (k : Carriage) : Option Int :=
  match k.last, k.pose with
  | some l, some p => frontAt k.cfg p l.speed.natAbs (speedDir l.speed)
  | _, _ => none

theorem frontNow_unsupervised (h : F.supervising c = none) : F.frontNow c = unsupervisedFront F.cars[c] := by
  rw [Fleet.frontNow, unsupervisedFront]
  cases (F.cars[c]).last with
  | none => rfl
  | some l =>
    cases (F.cars[c]).pose with
    | none => rfl
    | some p => simp only [Fleet.supervisionDir, h]

/-- Without a current warrant, and in a run-out without a stack, no warrant supervises. -/
theorem supervising_none (hcur : (F.cars[c]).current = none)
    (hst : (F.cars[c]).holds.reversal = true → (F.cars[c]).stack = []) : F.supervising c = none := by
  rw [Fleet.supervising, Fleet.inRunOut]
  split
  · rename_i hr
    rw [topOf_none (hst hr)]
    exact currentOf_none hcur
  · exact currentOf_none hcur

/-- A quiet retirement is a retirement whose MAINTENANCE warrant takes KEY_LOST with it (R88). -/
theorem retireQuietly_eq {w : Warrant} {r : Reason} (h : (F.slots[i]).warrant = some w) :
    retireQuietly W F i r = (unlink W F i w r).modCar w.carriage (fun k => { k with
      holds := { k.holds with keyLost := k.holds.keyLost && !(w.cls == .maintenance) } }) := by
  simp only [retireQuietly, h]
  split
  · rename_i hk
    simp only [losesKey, Bool.and_eq_true] at hk
    simp only [hk.1, Bool.not_true, Bool.and_false]
    rfl
  · rename_i hk
    refine (Fleet.modCar_eq_self ?_).symm
    have : (((unlink W F i w r).cars[w.carriage]).holds.keyLost && !(w.cls == .maintenance)) =
        ((unlink W F i w r).cars[w.carriage]).holds.keyLost := by
      rw [losesKey] at hk
      revert hk
      cases w.cls == .maintenance <;> cases ((unlink W F i w r).cars[w.carriage]).holds.keyLost <;> simp
    simp only [this]

end Restart

end Sys2Proof.Machine
end

section
namespace Sys2Proof.Machine

/-! ## The retirements of a restart, slot by slot (R93) -/

/-- Slot `i` holds a warrant of carriage `c`. -/
def Fleet.owns (F : Fleet) (c : CarId) (i : SlotId) : Prop := ∃ w, (F.slots[i]).warrant = some w ∧ w.carriage = c

/-- Slot `i` holds a MAINTENANCE warrant of carriage `c`. -/
def Fleet.maintains (F : Fleet) (c : CarId) (i : SlotId) : Prop :=
  ∃ w, (F.slots[i]).warrant = some w ∧ w.carriage = c ∧ w.cls = .maintenance

/-- Carriage `c`'s record `k` when the warrants of the slots below `n` have retired RESTART. -/
structure CarRestarted (F : Fleet) (c : CarId) (n : Nat) (k : Carriage) : Prop where
  rest : k = { F.cars[c] with
    current := k.current, stack := k.stack, front := k.front, lastRetire := k.lastRetire
    holds := { (F.cars[c]).holds with keyLost := k.holds.keyLost } }
  keyLost : k.holds.keyLost = true ↔
    (F.cars[c]).holds.keyLost = true ∧ ∀ i : SlotId, i.val < n → ¬F.maintains c i
  notRetired : (∀ i : SlotId, i.val < n → ¬F.owns c i) → k.lastRetire = (F.cars[c]).lastRetire
  lastRetired : ∀ i : SlotId, i.val < n → F.owns c i → (∀ j : SlotId, j.val < n → F.owns c j → j ≤ i) →
    k.lastRetire = some (.restart, F.handleOf i)
  noCurrent : (F.cars[c]).current = none → k.current = none
  noStack : (F.cars[c]).stack = [] → k.stack = []
  front : k.current = none → ((F.cars[c]).holds.reversal = true → k.stack = []) →
    k.front = if (F.cars[c]).current ≠ none ∨ ((F.cars[c]).holds.reversal = true ∧ (F.cars[c]).stack ≠ []) then
      unsupervisedFront F.cars[c] else (F.cars[c]).front

/-- The fleet when the warrants of the slots below `n` have retired RESTART. -/
structure RestartStage (F : Fleet) (n : Nat) (G : Fleet) : Prop where
  book : G.Book
  done : ∀ i : SlotId, i.val < n → G.slots[i] = { F.slots[i] with warrant := none }
  ahead : ∀ i : SlotId, n ≤ i.val → G.slots[i] = F.slots[i]
  lists : ∀ (r : RunId) (e : Entry), e ∈ G.occupancy[r] → e ∈ F.occupancy[r] ∧ n ≤ e.handle.slot.val
  cars : ∀ c : CarId, CarRestarted F c n G.cars[c]
  notices : G.notices = F.notices

section Stage

variable {W : World} {F G : Fleet} {c : CarId} {n : Nat}

theorem RestartStage.start (h : F.Book) : RestartStage F 0 F where
  book := h
  done _ hi := absurd hi (Nat.not_lt_zero _)
  ahead _ _ := rfl
  lists _ _ he := ⟨he, Nat.zero_le _⟩
  notices := rfl
  cars _ := {
    rest := rfl
    keyLost := ⟨fun hk => ⟨hk, fun _ hi => absurd hi (Nat.not_lt_zero _)⟩, And.left⟩
    notRetired := fun _ => rfl
    lastRetired := fun _ hi => absurd hi (Nat.not_lt_zero _)
    noCurrent := id
    noStack := id
    front := fun hc hs => (if_neg (fun e => e.elim (· hc) (fun e => e.2 (hs e.1)))).symm }

theorem unsupervisedFront_congr {k k' : Carriage} (hl : k'.last = k.last) (hp : k'.pose = k.pose)
    (hg : k'.cfg = k.cfg) : unsupervisedFront k' = unsupervisedFront k := by
  simp only [unsupervisedFront, hl, hp, hg]

theorem Fleet.maintains.owns {i : SlotId} (h : F.maintains c i) : F.owns c i := by
  obtain ⟨w, hw, hc, -⟩ := h
  exact ⟨w, hw, hc⟩

/-- A slot below `n + 1` is below `n` or slot `n` itself. -/
theorem forall_lt_succ_slot {p : SlotId → Prop} (i : SlotId) :
    (∀ j : SlotId, j.val < i.val + 1 → p j) ↔ (∀ j : SlotId, j.val < i.val → p j) ∧ p i := by
  refine ⟨fun h => ⟨fun j hj => h j (Nat.lt_succ_of_lt hj), h i (Nat.lt_succ_self _)⟩, fun h j hj => ?_⟩
  rcases Nat.lt_succ_iff_lt_or_eq.mp hj with hj | hj
  · exact h.1 j hj
  · rw [Fin.ext hj]; exact h.2

/-- A slot that is not the carriage's changes nothing of its record. -/
theorem CarRestarted.pass {i : SlotId} {k : Carriage} (h : CarRestarted F c i.val k) (hi : ¬F.owns c i) :
    CarRestarted F c (i.val + 1) k where
  rest := h.rest
  keyLost := by
    rw [forall_lt_succ_slot]
    exact h.keyLost.trans (and_congr_right fun _ => ⟨fun e => ⟨e, fun hm => hi hm.owns⟩, And.left⟩)
  notRetired e := h.notRetired ((forall_lt_succ_slot i).mp e).1
  lastRetired j hj hown hmax := by
    rcases Nat.lt_succ_iff_lt_or_eq.mp hj with hj | hj
    · exact h.lastRetired j hj hown ((forall_lt_succ_slot i).mp hmax).1
    · rw [Fin.ext hj] at hown; exact absurd hown hi
  noCurrent := h.noCurrent
  noStack := h.noStack
  front := h.front

/-- The warrants retired off a carriage's record by one more retirement: its handles, its last retire, its front where
supervision changes, and KEY_LOST with a MAINTENANCE one. -/
theorem CarRestarted.retire {i : SlotId} {w : Warrant} {U : Fleet}
    (h : CarRestarted F w.carriage i.val G.cars[w.carriage]) (hb : G.Book) (hi : G.slots[i] = F.slots[i])
    (hw : (F.slots[i]).warrant = some w) (hU : Retired W G i w .restart U) :
    CarRestarted F w.carriage (i.val + 1) { U.cars[w.carriage] with
      holds := { (U.cars[w.carriage]).holds with
        keyLost := (U.cars[w.carriage]).holds.keyLost && !(w.cls == .maintenance) } } := by
  have hG : G.handleOf i = F.handleOf i := by simp only [Fleet.handleOf, hi]
  have hown : F.owns w.carriage i := ⟨w, hw, rfl⟩
  have hcar := hU.car
  rw [hG] at hcar
  have hcfg : (G.cars[w.carriage]).last = (F.cars[w.carriage]).last ∧
      (G.cars[w.carriage]).pose = (F.cars[w.carriage]).pose ∧
      (G.cars[w.carriage]).cfg = (F.cars[w.carriage]).cfg ∧
      (G.cars[w.carriage]).holds.reversal = (F.cars[w.carriage]).holds.reversal := by
    rw [h.rest]; exact ⟨rfl, rfl, rfl, rfl⟩
  obtain ⟨hlast, hpose, hcfg, hrev⟩ := hcfg
  constructor
  case rest => rw [hcar, h.rest]
  case keyLost =>
    have hk : (U.cars[w.carriage]).holds.keyLost = (G.cars[w.carriage]).holds.keyLost := by rw [hcar]
    have hm : F.maintains w.carriage i ↔ w.cls = .maintenance := by
      refine ⟨fun ⟨w', hw', _, hm⟩ => ?_, fun e => ⟨w, hw, rfl, e⟩⟩
      rw [hw, Option.some.injEq] at hw'
      rw [hw']; exact hm
    rw [forall_lt_succ_slot, hm, ← and_assoc, ← h.keyLost, ← hk]
    simp
  case notRetired => exact fun e => absurd hown (e i (Nat.lt_succ_self _))
  case lastRetired =>
    intro j hj _ hmax
    have hij : i ≤ j := hmax i (Nat.lt_succ_self _) hown
    have : j = i := Fin.ext (Nat.le_antisymm (Nat.le_of_lt_succ hj) hij)
    rw [this, hcar]
  case noCurrent =>
    intro hc
    rw [hcar]
    simp only [h.noCurrent hc, ite_self]
  case noStack =>
    intro hs
    rw [hcar]
    simp only [h.noStack hs, List.filter_nil]
  case front =>
    intro hc hs
    have hback : (U.cars[w.carriage]).holds.reversal = true → (U.cars[w.carriage]).stack = [] := fun hr => hs (by
      rw [hcar] at hr; rw [← hrev]; exact hr)
    have hfront : U.frontNow w.carriage = unsupervisedFront F.cars[w.carriage] := by
      rw [frontNow_unsupervised (supervising_none hc hback)]
      refine unsupervisedFront_congr ?_ ?_ ?_
      · rw [hcar]; exact hlast
      · rw [hcar]; exact hpose
      · rw [hcar]; exact hcfg
    have hheld : (F.cars[w.carriage]).current = none → (F.cars[w.carriage]).stack ≠ [] := by
      intro hnone hnil
      have := hb.owned i w (by rw [hi]; exact hw)
      rw [h.noCurrent hnone, h.noStack hnil] at this
      split at this <;> cases this
    have hcur : (U.cars[w.carriage]).current =
        if (G.cars[w.carriage]).current = some (F.handleOf i) then none else (G.cars[w.carriage]).current := by
      rw [hcar]
    have hcase : (U.cars[w.carriage]).front =
        if (G.cars[w.carriage]).current = some (F.handleOf i) ∨ (G.cars[w.carriage]).holds.reversal = true then
          U.frontNow w.carriage
        else (G.cars[w.carriage]).front := by rw [hcar]
    simp only [hcase, hfront, hrev]
    by_cases hmine : (G.cars[w.carriage]).current = some (F.handleOf i)
    · have : (F.cars[w.carriage]).current ≠ none := fun e => by rw [h.noCurrent e] at hmine; cases hmine
      rw [if_pos (.inl hmine), if_pos (.inl this)]
    · by_cases hr : (F.cars[w.carriage]).holds.reversal = true
      · rw [if_pos (.inr hr)]
        refine (if_pos ?_).symm
        by_cases hnone : (F.cars[w.carriage]).current = none
        · exact .inr ⟨hr, hheld hnone⟩
        · exact .inl hnone
      · rw [if_neg (by tauto)]
        refine h.front ?_ (fun e => absurd e hr)
        rw [if_neg hmine] at hcur
        rw [← hcur]
        exact hc

/-- A slot with an entry holds a warrant of a carriage of the list's run. -/
theorem Fleet.Lists.of_slot (h : F.Lists) {i : SlotId} {r : RunId} {e : Entry} (he : e ∈ F.occupancy[r])
    (hs : e.handle.slot = i) : ∃ w, (F.slots[i]).warrant = some w ∧ (F.cars[w.carriage]).cfg.run = r := by
  subst hs
  obtain ⟨w, hw, -, hr⟩ := h.belongs r e he
  exact ⟨w, Fleet.slot_of_live hw, hr⟩

/-- The next slot's retirement. -/
theorem RestartStage.next {i : SlotId} (h : RestartStage F i.val G) (hl : F.Lists) :
    RestartStage F (i.val + 1) (retireQuietly W G i .restart) := by
  have hi : G.slots[i] = F.slots[i] := h.ahead i (Nat.le_refl _)
  have hfree : (F.slots[i]).warrant = none →
      ∀ (r : RunId) (e : Entry), e ∈ F.occupancy[r] → e.handle.slot ≠ i := fun hnone r e he hs => by
    obtain ⟨w, hw, -⟩ := hl.of_slot he hs
    rw [hnone] at hw
    cases hw
  cases hw : (F.slots[i]).warrant with
  | none =>
    have hsame : retireQuietly W G i .restart = G := by simp only [retireQuietly, hi, hw]
    rw [hsame]
    refine ⟨h.book, fun j hj => ?_, fun j hj => h.ahead j (Nat.le_of_succ_le hj), fun r e he => ?_,
      fun c => (h.cars c).pass (fun ⟨w, hw', _⟩ => by rw [hw] at hw'; cases hw'), h.notices⟩
    · rcases Nat.lt_succ_iff_lt_or_eq.mp hj with hj | hj
      · exact h.done j hj
      · rw [Fin.ext hj, hi, ← hw]
    · obtain ⟨hm, hn⟩ := h.lists r e he
      exact ⟨hm, Nat.lt_of_le_of_ne hn fun e' => hfree hw r e hm (Fin.ext e'.symm)⟩
  | some w =>
    have hGw : (G.slots[i]).warrant = some w := by rw [hi, hw]
    have hU : Retired W G i w .restart (unlink W G i w .restart) := unlink_retired .restart
    rw [retireQuietly_eq hGw]
    refine ⟨(Akin.modCar _ _ _ ⟨rfl, rfl, rfl, rfl⟩).book.book (hU.book h.book hGw), fun j hj => ?_,
      fun j hj => ?_, fun r e he => ?_, fun c => ?_, hU.notices.trans h.notices⟩
    · rw [Fleet.modCar_slots]
      rcases Nat.lt_succ_iff_lt_or_eq.mp hj with hj | hj
      · rw [hU.slots j (Fin.ne_of_lt hj)]; exact h.done j hj
      · rw [Fin.ext hj, hU.slot, hi]
    · rw [Fleet.modCar_slots, hU.slots j (Fin.ne_of_gt hj)]
      exact h.ahead j (Nat.le_of_succ_le hj)
    · rw [Fleet.modCar_occupancy] at he
      by_cases hr : r = (G.cars[w.carriage]).cfg.run
      · subst hr
        rw [hU.list, List.mem_filter, bne_iff_ne] at he
        obtain ⟨hm, hn⟩ := h.lists _ e he.1
        exact ⟨hm, Nat.lt_of_le_of_ne hn fun e' => he.2 (Fin.ext e'.symm)⟩
      · rw [hU.lists r hr] at he
        obtain ⟨hm, hn⟩ := h.lists _ e he
        refine ⟨hm, Nat.lt_of_le_of_ne hn fun e' => hr ?_⟩
        obtain ⟨w', hw', hrun⟩ := hl.of_slot hm (Fin.ext e'.symm)
        rw [hw, Option.some.injEq] at hw'
        subst hw'
        rw [(h.cars w.carriage).rest]
        exact hrun.symm
    · by_cases hc : c = w.carriage
      · subst hc
        rw [Fleet.modCar_get_self]
        exact (h.cars w.carriage).retire h.book hi hw hU
      · rw [Fleet.modCar_get_other _ _ hc, hU.cars c hc]
        exact (h.cars c).pass fun ⟨w', hw', hc'⟩ => by
          rw [hw, Option.some.injEq] at hw'
          exact hc (by rw [hw', hc'])

/-- All retirements of a restart. -/
theorem retireAll_stage (W : World) (h : F.Book) (hl : F.Lists) : RestartStage F 48 (retireAll W F) := by
  have key : ∀ n : Nat, n ≤ 48 →
      RestartStage F n (((List.finRange 48).take n).foldl (fun G i => retireQuietly W G i .restart) F) := by
    intro n
    induction n with
    | zero => exact fun _ => .start h
    | succ n ih =>
      intro hn
      have hlen : n < (List.finRange 48).length := by rw [List.length_finRange]; exact hn
      rw [List.take_succ_eq_append_getElem hlen, List.foldl_append, List.getElem_finRange]
      exact (ih (Nat.le_of_succ_le hn)).next (i := ⟨n, hn⟩) hl
  have := key 48 (Nat.le_refl _)
  rwa [List.take_of_length_le (by rw [List.length_finRange])] at this

end Stage

end Sys2Proof.Machine
end

section
namespace Sys2Proof.Machine

/-! ## The fleet after a restart (R178) -/

section RestartFleet

variable {W : World} {F U : Fleet} {c : CarId}

theorem restartHolders_keeps (W : World) (before : Vector (Option CarId) 32) (F : Fleet) :
    (restartHolders W before F).cars = F.cars ∧ (restartHolders W before F).slots = F.slots ∧
      (restartHolders W before F).occupancy = F.occupancy ∧ (restartHolders W before F).notices = F.notices := by
  unfold restartHolders
  split
  · exact ⟨rfl, rfl, rfl, rfl⟩
  · exact ⟨rfl, rfl, rfl, rfl⟩

/-- Whom a zone falls to depends on each carriage's state, run and pose. -/
theorem lowestReaching_congr (hs : ∀ c : CarId, (U.cars[c]).state = (F.cars[c]).state)
    (hg : ∀ c : CarId, (U.cars[c]).cfg = (F.cars[c]).cfg) (hp : ∀ c : CarId, (U.cars[c]).pose = (F.cars[c]).pose)
    (z : ZoneId) : lowestReaching W U z = lowestReaching W F z := by
  have : (fun c : CarId => (U.cars[c]).configured && (extentZones W U c).contains z) =
      fun c : CarId => (F.cars[c]).configured && (extentZones W F c).contains z := by
    funext c
    rw [extentZones_congr (by rw [hg]) (hp c), Carriage.configured, Carriage.configured, hs]
  simp only [lowestReaching, this]

/-- The holders of a restart, the present extents as before it. -/
theorem restartHolders_get (hs : ∀ c : CarId, (U.cars[c]).state = (F.cars[c]).state)
    (hg : ∀ c : CarId, (U.cars[c]).cfg = (F.cars[c]).cfg) (hp : ∀ c : CarId, (U.cars[c]).pose = (F.cars[c]).pose)
    (z : ZoneId) : (restartHolders W F.holders U).holders[z] =
      if W.map.locked then
        match F.holders[z] with
        | some c => if z ∈ extentZones W F c then some c else lowestReaching W F z
        | none => lowestReaching W F z
      else none := by
  have hlow := lowestReaching_congr (W := W) hs hg hp z
  have hext : ∀ c : CarId, extentZones W U c = extentZones W F c := fun c => extentZones_congr (by rw [hg]) (hp c)
  unfold restartHolders
  by_cases hl : W.map.locked = true
  · simp only [if_pos hl, Fin.getElem_fin, Vector.getElem_ofFn, Fin.eta, hlow, hext] <;> rfl
  · simp only [if_neg hl, Fleet.clearHolders, Fin.getElem_fin, Vector.getElem_replicate]

/-- A carriage's record after a restart's hold causes (R163). -/
theorem restartHolds_get (F : Fleet) (c : CarId) : (restartHolds F).cars[c] = { F.cars[c] with
    holds := { (F.cars[c]).holds with
      assuredHold := (F.cars[c]).configured || (F.cars[c]).holds.assuredHold, reversal := false } } := by
  have h : (restartHolds F).cars[c] = { (F.addHoldAll .assuredHold).cars[c] with
      holds := ((F.addHoldAll .assuredHold).cars[c]).holds.remove .reversal } := by
    simp only [restartHolds, Fin.getElem_fin, Vector.getElem_map]
  rw [h, Fleet.addHoldAll_get]
  by_cases hc : (F.cars[c]).configured = true
  · simp only [hc, Bool.true_or]; rfl
  · simp only [eq_false_of_ne_true hc, Bool.false_or]; rfl

theorem restartHolds_notices (F : Fleet) : (restartHolds F).notices = F.notices := rfl

theorem clearNotices_get (F : Fleet) (k : Fin 15) :
    (clearNotices F).notices[k] = { pending := false, mask := (F.notices[k]).mask, count := 0, detail := none } := by
  simp only [clearNotices, Fin.getElem_fin, Vector.getElem_map]

/-- `G` is what a restart leaves of `F`, where `U` is what its retirements leave. -/
structure Restarted (W : World) (F U G : Fleet) : Prop where
  stage : RestartStage F 48 U
  car : ∀ c : CarId, G.cars[c] = { U.cars[c] with
    holds := { (U.cars[c]).holds with
      assuredHold := (U.cars[c]).configured || (U.cars[c]).holds.assuredHold, reversal := false } }
  slots : G.slots = U.slots
  occupancy : G.occupancy = U.occupancy
  holders : G.holders = (restartHolders W F.holders U).holders
  notices : ∀ k : Fin 15,
    G.notices[k] = { pending := false, mask := (F.notices[k]).mask, count := 0, detail := none }

theorem restartFleet_restarted (W : World) (hb : F.Book) (hl : F.Lists) :
    Restarted W F (retireAll W F) (restartFleet W F) := by
  have hstage : RestartStage F 48 (retireAll W F) := retireAll_stage W hb hl
  unfold restartFleet
  generalize retireAll W F = U at hstage
  obtain ⟨hcars, hslots, hocc, hnot⟩ := restartHolders_keeps W F.holders U
  refine ⟨hstage, fun c => ?_, hslots, hocc, rfl, fun k => ?_⟩
  · have h : (clearNotices (restartHolds (restartHolders W F.holders U))).cars[c] =
      (restartHolds (restartHolders W F.holders U)).cars[c] := rfl
    rw [h, restartHolds_get, hcars]
  · rw [clearNotices_get, restartHolds_notices, hnot, hstage.notices]

/-- A restart adds ASSURED_HOLD and removes REVERSAL on a record that the retirements left without a warrant. -/
theorem CarRestarted.held {n : Nat} {k : Carriage} (h : CarRestarted F c n k) (hcur : k.current = none)
    (hstk : k.stack = []) :
    { k with holds := { k.holds with assuredHold := k.configured || k.holds.assuredHold, reversal := false } } =
      { F.cars[c] with
        current := none, stack := [], front := k.front, lastRetire := k.lastRetire
        holds := { (F.cars[c]).holds with
          keyLost := k.holds.keyLost
          assuredHold := (F.cars[c]).configured || (F.cars[c]).holds.assuredHold, reversal := false } } := by
  let held : Carriage → Carriage := fun k =>
    { k with holds := { k.holds with assuredHold := k.configured || k.holds.assuredHold, reversal := false } }
  refine (congrArg held h.rest).trans ?_
  rw [hcur, hstk]
  rfl

/-- When every warrant has retired no carriage has one. -/
theorem RestartStage.bare (h : RestartStage F 48 U) (c : CarId) : (U.cars[c]).current = none ∧ (U.cars[c]).stack = [] := by
  have hdead : ∀ (x : Handle) (w : Warrant), U.live x ≠ some w := fun x w hx => by
    have := Fleet.slot_of_live hx
    rw [h.done x.slot x.slot.isLt] at this
    cases this
  constructor
  · refine Option.eq_none_iff_forall_ne_some.mpr fun x hx => ?_
    obtain ⟨w, hw, -⟩ := h.book.current c x hx
    exact hdead x w hw
  · refine List.eq_nil_iff_forall_not_mem.mpr fun x hx => ?_
    obtain ⟨w, hw, -⟩ := h.book.stacked c x hx
    exact hdead x w hw

end RestartFleet

/-! ## The restart frame (R178, step 1) -/

section RestartFrame

variable {s : State} {f : Frame} {rest : List Frame}

/-- Every waiting frame but the restart itself is discarded. -/
theorem discardWaiting_of_offered (h : Offered s (.restart .assured) .assured f rest) :
    discardWaiting .assured s = { s with
      openPort := { s.openPort with queue := [] }, assured := { s.assured with queue := [f] } } := by
  have hq : s.assured.queue = f :: rest := h.front
  have hdue : restartDue .assured s = true := by
    simp only [restartDue, h.released, hq, h.names]
    decide
  simp only [discardWaiting, hdue, if_true, hq]
  rfl

/-- A restart is answered with no frame waiting behind it. -/
theorem exec_restart (h : Offered s (.restart .assured) .assured f rest) :
    exec (.restart .assured) s = .next
      (({ s with openPort := { s.openPort with queue := [] } } : State).answer .assured f []
        (s.records.withFleet (restartFleet s.records.world s.records.fleet)) (plain .done)) := by
  have ho : Offered (discardWaiting .assured s) (.restart .assured) .assured f [] := by
    rw [discardWaiting_of_offered h]
    exact ⟨h.released, rfl, h.names, nofun⟩
  have hrec : (discardWaiting .assured s).records = s.records := by rw [discardWaiting_of_offered h]
  have hrule : restartRule (originOf .assured f.station) () (discardWaiting .assured s).records =
      (s.records.withFleet (restartFleet s.records.world s.records.fleet), plain .done) := by
    rw [hrec]; rfl
  have hexec : exec (.restart .assured) s = execRestart .assured s := rfl
  rw [hexec, execRestart, ho.answers (decode := decodeIgnored) rfl hrule, discardWaiting_of_offered h]
  rfl

end RestartFrame

/-- Settles O57: the retirements leave each carriage as `CarRestarted` says, and the later steps add the hold causes,
the holders and the notices. -/
theorem restartKeepsMap : Obligations.RestartKeepsMap := by
  intro f rest s h hbook hlists F owns maint
  obtain ⟨U, G, hG, hexec⟩ : ∃ U G, Restarted s.records.world F U G ∧ exec (.restart .assured) s = .next
      (({ s with openPort := { s.openPort with queue := [] } } : State).answer .assured f []
        (s.records.withFleet G) { status := .done, body := [] }) :=
    ⟨_, _, restartFleet_restarted _ hbook hlists, exec_restart h⟩
  have hkeep : ∀ c : CarId, (U.cars[c]).state = (F.cars[c]).state ∧ (U.cars[c]).cfg = (F.cars[c]).cfg ∧
      (U.cars[c]).pose = (F.cars[c]).pose := fun c => by rw [(hG.stage.cars c).rest]; exact ⟨rfl, rfl, rfl⟩
  have hown : ∀ (c : CarId) (i : SlotId), owns c i ↔ F.owns c i := fun c i => by
    simp only [owns, Option.any_eq_true, beq_iff_eq, Fleet.owns]
  have hmaint : ∀ c : CarId, maint c = false ↔ ∀ i : SlotId, i.val < 48 → ¬F.maintains c i := fun c => by
    simp only [maint, List.any_eq_false, List.mem_finRange, true_implies, Option.any_eq_true, Bool.and_eq_true,
      beq_iff_eq]
    exact forall_congr' fun i => ⟨fun e _ => e, fun e => e i.isLt⟩
  refine ⟨G, hexec, fun i => ?_, fun r => ?_, fun c => ?_, fun z => ?_, hG.notices⟩
  · rw [hG.slots, hG.stage.done i i.isLt]
  · rw [hG.occupancy]
    exact List.eq_nil_iff_forall_not_mem.mpr fun e he =>
      absurd (hG.stage.lists r e he).2 (Nat.not_le.mpr e.handle.slot.isLt)
  · have hc := hG.stage.cars c
    obtain ⟨hcur, hstk⟩ := hG.stage.bare c
    have hcar := (hG.car c).trans (hc.held hcur hstk)
    refine ⟨_, _, _, hcar, rfl, rfl, fun x hx => ?_, ?_, fun hno => ?_, fun i hi hmax => ?_, ?_⟩
    · simp only [List.mem_cons, List.not_mem_nil, or_false] at hx
      rcases hx with rfl | rfl | rfl | rfl <;> rfl
    · rw [Bool.eq_iff_iff, Bool.and_eq_true, Bool.not_eq_true', hmaint c]
      exact hc.keyLost
    · exact hc.notRetired fun i _ hi => hno i ((hown c i).mpr hi)
    · exact hc.lastRetired i i.isLt ((hown c i).mp hi) fun j _ hj => hmax j ((hown c j).mpr hj)
    · have hfront : G.frontNow c = unsupervisedFront F.cars[c] := by
        rw [frontNow_unsupervised (supervising_none (by rw [hcar]) (fun _ => by rw [hcar]))]
        exact unsupervisedFront_congr (by rw [hcar]) (by rw [hcar]) (by rw [hcar])
      rw [hfront]
      exact hc.front hcur fun _ => hstk
  · rw [hG.holders]
    exact restartHolders_get (fun c => (hkeep c).1) (fun c => (hkeep c).2.1) (fun c => (hkeep c).2.2) z

end Sys2Proof.Machine
end

section
namespace Sys2Proof.Machine

/-! ## Worlds that differ in marks alone -/

/-- The second world differs from the first in nothing but the marks of bays, as far as warrants and reports read it. -/
structure SameGround (W W' : World) : Prop where
  track : SameTrack W.map W'.map
  now : W'.now = W.now
  wind : W'.wind = W.wind
  exposed : ∀ r : RunId, (W'.map.runs[r]).exposed = (W.map.runs[r]).exposed
  bay : ∀ (r : RunId) (b : Nat), ((W'.map.runs[r]).bay b).map (fun x => (x.ceiling, x.access, x.zone)) =
    ((W.map.runs[r]).bay b).map (fun x => (x.ceiling, x.access, x.zone))

section SameGround

variable {W W' : World} {F G : Fleet} {c : CarId}

theorem SameGround.refl (W : World) : SameGround W W := ⟨.refl _, rfl, rfl, fun _ => rfl, fun _ _ => rfl⟩

/-- The marks that a report sets change nothing that warrants and reports read. -/
theorem setMarks_sameGround (W : World) (F : Fleet) (c : CarId) (v : Nat) : SameGround W (setMarks W F c v) where
  track := .setMarks W F c v
  now := rfl
  wind := rfl
  exposed r := by
    simp only [setMarks, TrackMap.setRun_get]
    split
    · rename_i e; rw [e]
    · rfl
  bay r b := by
    have h : ∀ run : Run, run.bay b = run.bays[b]? := fun _ => rfl
    simp only [setMarks, TrackMap.setRun_get]
    split
    · rename_i e
      subst e
      rw [h, h, ← List.getElem?_map, ← List.getElem?_map]
      exact congrArg (·[b]?) (markBays_map (fun x => (x.ceiling, x.access, x.zone)) (fun _ _ _ => rfl) _ _ _ _)
    · rfl

theorem SameGround.roundOut (h : SameGround W W') (r : RunId) (d : Dir) (x : Int) :
    (W'.map.runs[r]).roundOut d x = (W.map.runs[r]).roundOut d x := by
  simp only [Run.roundOut, Run.unitAt, h.track.units, h.track.last]

theorem SameGround.unitNear (h : SameGround W W') (r : RunId) (x : Int) :
    (W'.map.runs[r]).unitNear x = (W.map.runs[r]).unitNear x := by
  simp only [Run.unitNear, Run.clamp, Run.unitAt, h.track.units, h.track.last] <;> rfl

theorem SameGround.between (h : SameGround W W') (r : RunId) (x y : Int) :
    (W'.map.runs[r]).between x y = (W.map.runs[r]).between x y := by
  simp only [Run.between, h.unitNear, h.track.units]

theorem SameGround.rearFor (h : SameGround W W') (F : Fleet) (c : CarId) (d : Dir) :
    rearFor W' F c d = rearFor W F c d := by
  simp only [Machine.rearFor, runOf, h.unitNear]

/-- The ceiling of a bay's units is read off the bay's ceiling, access and zone. -/
theorem ceilingFor_congr {m m' : TrackMap} {b b' : Bay} (hz : m'.zones = m.zones)
    (hb : (b'.ceiling, b'.access, b'.zone) = (b.ceiling, b.access, b.zone)) (k : Cls) (creep : Nat) :
    m'.ceilingFor b' k creep = m.ceilingFor b k creep := by
  simp only [Prod.mk.injEq] at hb
  obtain ⟨hceil, hacc, hzone⟩ := hb
  simp only [TrackMap.ceilingFor, TrackMap.access, TrackMap.ceiling, TrackMap.chain, hz, hceil, hacc, hzone]

theorem SameGround.leastCeiling (h : SameGround W W') (F : Fleet) (c : CarId) (k : Cls) (start : Nat)
    (us : List TrackUnit) : leastCeiling W' F c k start us = leastCeiling W F c k start us := by
  refine congrArg (fun f => us.foldl f start) (funext fun acc => funext fun u => ?_)
  have hb := h.bay (F.cars[c]).cfg.run u.bay
  have hrun : ∀ W : World, runOf W F c = W.map.runs[(F.cars[c]).cfg.run] := fun _ => rfl
  rw [hrun, hrun]
  cases hx : (W.map.runs[(F.cars[c]).cfg.run]).bay u.bay with
  | none =>
    rw [hx, Option.map_none, Option.map_eq_none_iff] at hb
    simp only [hb]
  | some b =>
    rw [hx, Option.map_some, Option.map_eq_some_iff] at hb
    obtain ⟨b', hb', e⟩ := hb
    simp only [hb', ceilingFor_congr h.track.zones e]

theorem SameGround.fullCeiling (h : SameGround W W') (F : Fleet) (w : Warrant) :
    fullCeiling W' F w = fullCeiling W F w := by
  simp only [Machine.fullCeiling, spanUnits, runOf, h.between, h.leastCeiling]

theorem SameGround.cutLimit (h : SameGround W W') (F : Fleet) (w : Warrant) : cutLimit W' F w = cutLimit W F w := by
  simp only [Machine.cutLimit, cutFloor, runOutFloor, roundedFront, runOf, h.roundOut] <;> rfl

theorem SameGround.markedSlot (h : SameGround W W') (F : Fleet) (i : SlotId) (w : Warrant) (r : Reason) :
    markedSlot W' F i w r = markedSlot W F i w r := by
  simp only [Machine.markedSlot, h.cutLimit, h.fullCeiling]

theorem SameGround.entryOf (h : SameGround W W') (F : Fleet) (c : CarId) (x : Handle) (w : Warrant) :
    entryOf (runOf W' F c) x w = entryOf (runOf W F c) x w :=
  h.track.entryOf _ _ _

theorem SameGround.relisted (h : SameGround W W') (F : Fleet) (x : Option (SlotId × Warrant))
    (limit : Warrant → Option Int) (l : List Entry) : relisted W' F x limit l = relisted W F x limit l := by
  unfold Machine.relisted
  simp only [h.entryOf]

theorem SameGround.envelopeCheck (h : SameGround W W') (F : Fleet) (c : CarId) (speed : Int) :
    envelopeCheck W' F c speed = envelopeCheck W F c speed := by
  have he : ∀ w, effectiveCeiling W' F c w = effectiveCeiling W F c w := fun w => by
    simp only [effectiveCeiling, windCap, runOf, h.exposed, h.wind] <;> rfl
  simp only [Machine.envelopeCheck, warrantCheck, he]

theorem SameGround.rezoned (h : SameGround W W') : Rezoned W' F G c ↔ Rezoned W F G c := by
  simp only [Rezoned, h.track.reachedZones, h.track.locked]

end SameGround

end Sys2Proof.Machine
end

section
namespace Sys2Proof.Machine

/-! ## Holdings over several steps (R39, R68) -/

section Zoned

variable {W : World} {F P G : Fleet} {c : CarId}

/-- Steps after which carriage `c`'s holdings are as before with its reach as before, or recomputed. -/
def Zoned (W : World) (F G : Fleet) (c : CarId) : Prop :=
  (G.holders = F.holders ∧ reachedZones W G c = reachedZones W F c) ∨ Rezoned W F G c

theorem Zoned.refl (W : World) (F : Fleet) (c : CarId) : Zoned W F F c := .inl ⟨rfl, rfl⟩

/-- Only the holders of the first fleet count. -/
theorem Rezoned.of_holders (h : Rezoned W P G c) (e : P.holders = F.holders) : Rezoned W F G c := fun z => by
  rw [← e]; exact h z

/-- Holdings computed anew twice are those of the second time. -/
theorem Rezoned.trans (h : Rezoned W F P c) (h' : Rezoned W P G c) : Rezoned W F G c := by
  intro z
  rw [h' z, h z]
  by_cases hl : W.map.locked = true
  · simp only [if_pos hl]
    cases F.holders[z] with
    | none =>
      by_cases hp : z ∈ reachedZones W P c <;> by_cases hg : z ∈ reachedZones W G c <;> simp [hp, hg]
    | some d =>
      by_cases hd : d = c
      · subst hd
        by_cases hp : z ∈ reachedZones W P d <;> by_cases hg : z ∈ reachedZones W G d <;> simp [hp, hg]
      · simp [hd]
  · simp only [if_neg hl]

/-- A recomputation stands while neither the holders nor the reach change. -/
theorem Rezoned.zoned (h : Rezoned W F P c) (h' : Zoned W P G c) : Rezoned W F G c := by
  rcases h' with ⟨hh, hr⟩ | h'
  · intro z
    rw [hh, hr]
    exact h z
  · exact h.trans h'

theorem Zoned.rezoned (h : Zoned W F P c) (h' : Rezoned W P G c) : Rezoned W F G c := by
  rcases h with ⟨hh, -⟩ | h
  · exact h'.of_holders hh
  · exact h.trans h'

theorem Zoned.trans (h : Zoned W F P c) (h' : Zoned W P G c) : Zoned W F G c := by
  rcases h with ⟨hh, hr⟩ | h
  · rcases h' with ⟨hh', hr'⟩ | h'
    · exact .inl ⟨hh'.trans hh, hr'.trans hr⟩
    · exact .inr (h'.of_holders hh)
  · exact .inr (h.zoned h')

/-- A change that holders and reach do not show. -/
theorem Zoned.of_same (hh : G.holders = F.holders) (ho : G.occupancy = F.occupancy)
    (hc : (G.cars[c]).cfg = (F.cars[c]).cfg) (hp : (G.cars[c]).pose = (F.cars[c]).pose) : Zoned W F G c :=
  .inl ⟨hh, reachedZones_congr hc hp ho⟩

theorem SameGround.zoned {W' : World} (h : SameGround W W') : Zoned W' F G c ↔ Zoned W F G c := by
  simp only [Zoned, h.rezoned, h.track.reachedZones]

end Zoned

/-! ## The warrants on a carriage's handles -/

section Handles

variable {W : World} {F G : Fleet} {c : CarId} {i j : SlotId} {w u : Warrant}

/-- The top of the stack is a suspended warrant of the carriage (R66). -/
theorem Fleet.Book.topOf_some (h : F.Book) (ht : F.topOf c = some (i, w)) :
    (F.cars[c]).stack.getLast? = some (F.handleOf i) ∧ (F.slots[i]).warrant = some w ∧ w.carriage = c ∧
      w.state = .suspended := by
  unfold Fleet.topOf at ht
  split at ht
  · rename_i x hx
    have hm := List.mem_of_getLast? hx
    obtain ⟨v, hv, hvc, hvs⟩ := h.stacked c x hm
    rw [hv, Option.map_some, Option.some.injEq, Prod.mk.injEq] at ht
    obtain ⟨rfl, rfl⟩ := ht
    exact ⟨by rw [hx, ← h.stacked_eq hm], Fleet.slot_of_live hv, hvc, hvs⟩
  · cases ht

theorem Fleet.Book.current_none (h : F.Book) (hc : F.currentOf c = none) : (F.cars[c]).current = none := by
  refine Option.eq_none_iff_forall_ne_some.mpr fun x hx => ?_
  obtain ⟨w, hw, -⟩ := h.current c x hx
  simp only [Fleet.currentOf, hx, hw, Option.map_some] at hc
  cases hc

/-- A current warrant's handle is on no stack. -/
theorem Fleet.Book.current_not_stacked (h : F.Book) (hc : F.currentOf c = some (i, w)) :
    F.handleOf i ∉ (F.cars[c]).stack := by
  intro hm
  obtain ⟨-, hw, -, hs⟩ := h.currentOf_some hc
  obtain ⟨v, hv, -, hvs⟩ := h.stacked c _ hm
  rw [Fleet.live_handleOf, hw, Option.some.injEq] at hv
  exact hs (hv ▸ hvs)

/-- A live current handle names the current warrant. -/
theorem currentOf_of_handle (hc : (F.cars[c]).current = some (F.handleOf i)) (hw : (F.slots[i]).warrant = some w) :
    F.currentOf c = some (i, w) := by
  have hs : (F.handleOf i).slot = i := rfl
  simp only [Fleet.currentOf, hc, Fleet.live_handleOf, hw, Option.map_some, hs]

/-- A live handle on top of the stack names the top warrant. -/
theorem topOf_of_handle (hc : (F.cars[c]).stack.getLast? = some (F.handleOf i)) (hw : (F.slots[i]).warrant = some w) :
    F.topOf c = some (i, w) := by
  have hs : (F.handleOf i).slot = i := rfl
  simp only [Fleet.topOf, hc, Fleet.live_handleOf, hw, Option.map_some, hs]

theorem Fleet.runOutTop_some (h : F.runOutTop c = some (i, w)) :
    (F.cars[c]).holds.reversal = true ∧ F.topOf c = some (i, w) := by
  unfold Fleet.runOutTop at h
  split at h
  · rename_i hr; exact ⟨hr, h⟩
  · cases h

/-- The current warrant and the top one stand in two slots. -/
theorem Fleet.Book.current_ne_top (h : F.Book) (hc : F.currentOf c = some (i, w)) (ht : F.runOutTop c = some (j, u)) :
    i ≠ j := by
  rintro rfl
  obtain ⟨-, hw, -, hs⟩ := h.currentOf_some hc
  obtain ⟨-, hu, -, hus⟩ := h.topOf_some (Fleet.runOutTop_some ht).2
  rw [hw, Option.some.injEq] at hu
  exact hs (hu ▸ hus)

end Handles

/-! ## A cut's limit is read off the carriage's record (R84, R90) -/

section CutLimit

variable {W : World} {F G : Fleet} {w : Warrant}

theorem fullCeiling_of_car (hg : (G.cars[w.carriage]).cfg = (F.cars[w.carriage]).cfg)
    (hp : (G.cars[w.carriage]).pose = (F.cars[w.carriage]).pose) : fullCeiling W G w = fullCeiling W F w := by
  have hl : ∀ d, (G.cars[w.carriage]).lead d = (F.cars[w.carriage]).lead d := fun d => by
    simp only [Carriage.lead, hp]
  simp only [fullCeiling, leastCeiling, spanUnits, runOf, hg, hl]

theorem cutLimit_of_car (hg : (G.cars[w.carriage]).cfg = (F.cars[w.carriage]).cfg)
    (hp : (G.cars[w.carriage]).pose = (F.cars[w.carriage]).pose)
    (hf : (G.cars[w.carriage]).front = (F.cars[w.carriage]).front)
    (hr : (G.cars[w.carriage]).holds.reversal = (F.cars[w.carriage]).holds.reversal) :
    cutLimit W G w = cutLimit W F w := by
  have hl : ∀ d, (G.cars[w.carriage]).lead d = (F.cars[w.carriage]).lead d := fun d => by
    simp only [Carriage.lead, hp]
  simp only [cutLimit, cutFloor, runOutFloor, roundedFront, runOf, Fleet.inRunOut, hg, hl, hf, hr] <;> rfl

/-- The marked slot of a warrant is read off its carriage's record and its generation. -/
theorem markedSlot_of_car {i : SlotId} {r : Reason} (hs : (G.slots[i]).generation = (F.slots[i]).generation)
    (hg : (G.cars[w.carriage]).cfg = (F.cars[w.carriage]).cfg)
    (hp : (G.cars[w.carriage]).pose = (F.cars[w.carriage]).pose)
    (hf : (G.cars[w.carriage]).front = (F.cars[w.carriage]).front)
    (hr : (G.cars[w.carriage]).holds.reversal = (F.cars[w.carriage]).holds.reversal) :
    markedSlot W G i w r = markedSlot W F i w r := by
  have hx := cutLimit_of_car (W := W) hg hp hf hr
  have hc : fullCeiling W G { w with limit := cutLimit W F w } = fullCeiling W F { w with limit := cutLimit W F w } :=
    fullCeiling_of_car hg hp
  simp only [markedSlot, hs, hx, hc]

end CutLimit

end Sys2Proof.Machine
end

section
namespace Sys2Proof.Machine

/-! ## Marking and retiring at most one warrant of a carriage -/

/-- The warrant, when there is one, is live in its slot and the carriage's. -/
def Fleet.Bears (F : Fleet) (c : CarId) (x : Option (SlotId × Warrant)) : Prop :=
  ∀ (i : SlotId) (w : Warrant), x = some (i, w) → (F.slots[i]).warrant = some w ∧ w.carriage = c

/-- The warrant, when there is one, is cut and marked (R90). -/
def markAt (W : World) (F : Fleet) (x : Option (SlotId × Warrant)) (r : Reason) : Fleet :=
  match x with
  | some (i, _) => markWarrant W F i r
  | none => F

/-- The warrant, when there is one, retires with the reason it carries or TRIPPED, and no resumption is attempted
(R88, R156). -/
def quitAt (W : World) (F : Fleet) (x : Option (SlotId × Warrant)) : Fleet :=
  match x with
  | some (i, w) => retireQuietly W F i (w.retireOnStop.getD .tripped)
  | none => F

/-- What `markAt` leaves of `F`. -/
structure MarkedAt (W : World) (F : Fleet) (c : CarId) (x : Option (SlotId × Warrant)) (r : Reason) (G : Fleet) :
    Prop where
  cars : G.cars = F.cars
  notices : G.notices = F.notices
  slot : ∀ (i : SlotId) (w : Warrant), x = some (i, w) → G.slots[i] = markedSlot W F i w r
  slots : ∀ j : SlotId, (∀ w, x ≠ some (j, w)) → G.slots[j] = F.slots[j]
  list : ∀ q : RunId, q = (F.cars[c]).cfg.run →
    G.occupancy[q] = relisted W F x (fun w => some (cutLimit W F w)) F.occupancy[q]
  lists : ∀ q : RunId, q ≠ (F.cars[c]).cfg.run → G.occupancy[q] = F.occupancy[q]
  zones : Zoned W F G c
  book : G.Book

/-- What `quitAt` leaves of `F`. -/
structure QuitAt (W : World) (F : Fleet) (c : CarId) (x : Option (SlotId × Warrant)) (G : Fleet) : Prop where
  car : G.cars[c] = { F.cars[c] with
    current := if x.any (fun y => decide ((F.cars[c]).current = some (F.handleOf y.1))) = true then none
      else (F.cars[c]).current
    stack := match x with
      | some (i, _) => (F.cars[c]).stack.filter (fun h => h != F.handleOf i)
      | none => (F.cars[c]).stack
    lastRetire := (x.map (fun y => (y.2.retireOnStop.getD .tripped, F.handleOf y.1))).or (F.cars[c]).lastRetire
    holds := { (F.cars[c]).holds with
      keyLost := (F.cars[c]).holds.keyLost && !x.any (fun y => y.2.cls == .maintenance) }
    front := if x.any (fun y => decide ((F.cars[c]).current = some (F.handleOf y.1)) || (F.cars[c]).holds.reversal) = true
        then G.frontNow c
      else (F.cars[c]).front }
  cars : F.sameCarsBut G c
  notices : G.notices = F.notices
  slot : ∀ (i : SlotId) (w : Warrant), x = some (i, w) → G.slots[i] = { F.slots[i] with warrant := none }
  slots : ∀ j : SlotId, (∀ w, x ≠ some (j, w)) → G.slots[j] = F.slots[j]
  list : ∀ q : RunId, q = (F.cars[c]).cfg.run → G.occupancy[q] = relisted W F x (fun _ => none) F.occupancy[q]
  lists : ∀ q : RunId, q ≠ (F.cars[c]).cfg.run → G.occupancy[q] = F.occupancy[q]
  zones : Zoned W F G c
  book : G.Book

section MarkQuit

variable {W : World} {F G : Fleet} {c : CarId} {x : Option (SlotId × Warrant)}

/-- A marked warrant stays on its carriage's book. -/
theorem Marked.book {i : SlotId} {w : Warrant} {r : Reason} (h : Marked W F i w r G) (hw : (F.slots[i]).warrant = some w)
    (hb : F.Book) : G.Book := by
  have hs : SlotsAkin Warrant.role F G := by
    constructor
    · intro j
      by_cases hj : j = i
      · rw [hj, h.slot]
      · rw [h.slots j hj]
    · intro j
      by_cases hj : j = i
      · rw [hj, h.slot, hw]; rfl
      · rw [h.slots j hj]
  exact BookAkin.book ⟨fun _ => by rw [h.cars], fun _ => by rw [h.cars], hs⟩ hb

theorem markAt_spec (W : World) (hb : F.Bears c x) (hbook : F.Book) (r : Reason) :
    MarkedAt W F c x r (markAt W F x r) := by
  cases x with
  | none =>
    exact ⟨rfl, rfl, fun _ _ e => (Option.some_ne_none _ e.symm).elim, fun _ _ => rfl, fun _ _ => rfl,
      fun _ _ => rfl, .refl W F c, hbook⟩
  | some y =>
    obtain ⟨i, w⟩ := y
    obtain ⟨hw, rfl⟩ := hb i w rfl
    have hm := markWarrant_marked (W := W) r hw
    refine ⟨hm.cars, hm.notices, fun j u e => ?_, fun j hj => hm.slots j fun e => hj w (by rw [e]), fun q hq => hq ▸ hm.list,
      hm.lists, .inr hm.zones, hm.book hw hbook⟩
    obtain ⟨rfl, rfl⟩ := Prod.mk.inj (Option.some.inj e)
    exact hm.slot

/-- The braking front is read off the last report, the pose and the direction of supervision. -/
theorem frontNow_congr (hl : (G.cars[c]).last = (F.cars[c]).last) (hp : (G.cars[c]).pose = (F.cars[c]).pose)
    (hg : (G.cars[c]).cfg = (F.cars[c]).cfg)
    (hs : (G.supervising c).map (fun y => y.2.dir) = (F.supervising c).map (fun y => y.2.dir)) :
    G.frontNow c = F.frontNow c := by
  have hd : G.supervisionDir c = F.supervisionDir c := by
    funext v
    unfold Fleet.supervisionDir
    cases hG : G.supervising c with
    | none =>
      rw [hG, Option.map_none, eq_comm, Option.map_eq_none_iff] at hs
      rw [hs]
    | some y =>
      rw [hG, Option.map_some, eq_comm, Option.map_eq_some_iff] at hs
      obtain ⟨z, hz, e⟩ := hs
      simp only [hz, e]
  simp only [Fleet.frontNow, hl, hp, hg, hd]

theorem quitAt_spec (W : World) (hb : F.Bears c x) (hbook : F.Book) : QuitAt W F c x (quitAt W F x) := by
  cases x with
  | none =>
    refine ⟨?_, fun _ _ => rfl, rfl, fun _ _ e => (Option.some_ne_none _ e.symm).elim, fun _ _ => rfl, fun _ _ => rfl,
      fun _ _ => rfl, .refl W F c, hbook⟩
    simp [quitAt]
  | some y =>
    obtain ⟨i, w⟩ := y
    obtain ⟨hw, rfl⟩ := hb i w rfl
    let reason := w.retireOnStop.getD .tripped
    let U := unlink W F i w reason
    have hU : Retired W F i w reason U := unlink_retired reason
    let G := U.modCar w.carriage (fun k => { k with
      holds := { k.holds with keyLost := k.holds.keyLost && !(w.cls == .maintenance) } })
    have hG : quitAt W F (some (i, w)) = G := retireQuietly_eq hw
    have hself : G.cars[w.carriage] = { U.cars[w.carriage] with holds := { (U.cars[w.carriage]).holds with
        keyLost := (U.cars[w.carriage]).holds.keyLost && !(w.cls == .maintenance) } } := Fleet.modCar_get_self _ _ _
    have hfront : G.frontNow w.carriage = U.frontNow w.carriage :=
      frontNow_congr (by rw [hself]) (by rw [hself]) (by rw [hself])
        (congrArg _ (supervising_congr (by rw [hself]) (by rw [hself]) (by rw [hself]) rfl))
    rw [hG]
    refine ⟨?_, fun d hd => ?_, hU.notices, fun j u e => ?_, fun j hj => hU.slots j fun e => hj w (by rw [e]),
      fun q hq => hq ▸ hU.list,
      hU.lists, .inr ?_, (Akin.modCar _ _ _ ⟨rfl, rfl, rfl, rfl⟩).book.book (hU.book hbook hw)⟩
    · rw [hfront, hself, hU.car]
      simp only [Option.any_some, Option.map_some, Option.some_or, decide_eq_true_eq, Bool.or_eq_true]
      rfl
    · rw [Fleet.modCar_get_other _ _ hd]; exact hU.cars d hd
    · obtain ⟨rfl, rfl⟩ := Prod.mk.inj (Option.some.inj e)
      exact hU.slot
    · exact hU.zones.zoned (.of_same rfl rfl (by rw [hself]) (by rw [hself]))

end MarkQuit

end Sys2Proof.Machine
end

section
namespace Sys2Proof.Machine

/-! ## Nothing is resumed while a carriage is TRIPPED (R124) -/

section Tripped

variable {W : World} {F : Fleet} {c : CarId} {i : SlotId} {w : Warrant}

theorem attempt_of_tripped (h : (F.cars[c]).state = .tripped) : attempt W F c = F := by
  have hno : mayAttempt F c = false := by
    rw [mayAttempt, h]
    simp
  rw [attempt, hno]
  rfl

theorem releaseHold_of_tripped (h : (F.cars[c]).state = .tripped) (x : Cause) :
    releaseHold W F c x = F.removeHold c x := by
  have hs : ((F.removeHold c x).cars[c]).state = .tripped := by
    rw [Fleet.removeHold, Fleet.modCar_get_self]; exact h
  simp only [releaseHold, attempt_of_tripped hs, ite_self]

/-- A retirement of a TRIPPED carriage's warrant attempts no resumption. -/
theorem retire_of_tripped (hw : (F.slots[i]).warrant = some w) (h : (F.cars[w.carriage]).state = .tripped) (r : Reason) :
    retire W F i r = retireQuietly W F i r := by
  have hU : ((unlink W F i w r).cars[w.carriage]).state = .tripped := by
    rw [(unlink_retired r).car]; exact h
  simp only [retire, retireQuietly, hw, attempt_of_tripped hU, ite_self, releaseHold_of_tripped hU]

/-- The current warrant of a TRIPPED carriage at a trip (R156). -/
theorem stopCurrent_of_tripped (hb : F.Book) (h : (F.cars[c]).state = .tripped) (v : Nat) : stopCurrent W F c v =
    if v ≤ 5 then quitAt W F (F.currentOf c) else markAt W F (F.currentOf c) .tripped := by
  unfold stopCurrent
  cases hx : F.currentOf c with
  | none => simp only [quitAt, markAt, ite_self]
  | some y =>
    obtain ⟨i, w⟩ := y
    obtain ⟨-, hw, hc, -⟩ := hb.currentOf_some hx
    simp only [quitAt, markAt, standstill, decide_eq_true_eq, retire_of_tripped hw (hc ▸ h)]

/-- A marked current warrant of a TRIPPED carriage goes at standstill (R100). -/
theorem stopStage_of_tripped (hb : F.Book) (h : (F.cars[c]).state = .tripped)
    (hm : ∀ i w, F.currentOf c = some (i, w) → w.retireOnStop.isSome = true) (v : Nat) :
    stopStage W F c v = if v ≤ 5 then quitAt W F (F.currentOf c) else F := by
  unfold stopStage
  cases hx : F.currentOf c with
  | none => simp only [quitAt, ite_self]
  | some y =>
    obtain ⟨i, w⟩ := y
    obtain ⟨-, hw, hc, -⟩ := hb.currentOf_some hx
    obtain ⟨r, hr⟩ := Option.isSome_iff_exists.mp (hm i w hx)
    simp only [hr, quitAt, standstill, decide_eq_true_eq, Option.getD_some, retire_of_tripped hw (hc ▸ h)]

theorem stopStage_of_moving {v : Nat} (h : 5 < v) : stopStage W F c v = F := by
  have hs : standstill v = false := decide_eq_false (Nat.not_le.mpr h)
  simp only [stopStage, hs, Bool.false_eq_true, if_false]
  split
  · split <;> rfl
  · rfl

/-- The cut of the top of the stack in a run-out, of a fleet with the same stack (R156). -/
theorem markTop_eq {B : Fleet} (hb : F.Book) (hs : (B.cars[c]).stack = (F.cars[c]).stack)
    (hr : (B.cars[c]).holds.reversal = (F.cars[c]).holds.reversal)
    (hg : ∀ j u, F.runOutTop c = some (j, u) → B.slots[j] = F.slots[j]) (r : Reason) :
    markTop W B c r = markAt W B (F.runOutTop c) r := by
  unfold markTop Fleet.inRunOut
  rw [hr]
  by_cases hrev : (F.cars[c]).holds.reversal = true
  · rw [if_pos hrev]
    cases ht : F.topOf c with
    | none =>
      have hst : (F.cars[c]).stack = [] := by
        by_contra hne
        obtain ⟨x, hx⟩ := Option.isSome_iff_exists.mp (List.getLast?_isSome.mpr hne)
        obtain ⟨w, hw, -⟩ := hb.stacked c x (List.mem_of_getLast? hx)
        simp only [Fleet.topOf, hx, hw, Option.map_some] at ht
        cases ht
      rw [topOf_none (hs.trans hst), Fleet.runOutTop, if_pos hrev, ht]
      rfl
    | some y =>
      obtain ⟨j, u⟩ := y
      have hy : F.runOutTop c = some (j, u) := by rw [Fleet.runOutTop, if_pos hrev, ht]
      obtain ⟨hl, hu, -⟩ := hb.topOf_some ht
      have hBj := hg j u hy
      have hB : B.topOf c = some (j, u) := by
        refine topOf_of_handle ?_ (by rw [hBj]; exact hu)
        rw [hs, hl, Fleet.handleOf, Fleet.handleOf, hBj]
      rw [hB, hy]
      rfl
  · rw [if_neg hrev, Fleet.runOutTop, if_neg hrev]
    rfl

end Tripped

/-! ## Lists written anew (R67) -/

section Relisted

variable {W : World} {F G : Fleet} {x y : Option (SlotId × Warrant)}

/-- A list written anew depends on the slot's generation, the carriage's run and the limit. -/
theorem relisted_congr {f g : Warrant → Option Int} (l : List Entry)
    (h : ∀ i w, x = some (i, w) → G.handleOf i = F.handleOf i ∧
      (G.cars[w.carriage]).cfg.run = (F.cars[w.carriage]).cfg.run ∧ g w = f w) :
    relisted W G x g l = relisted W F x f l := by
  cases x with
  | none => rfl
  | some y =>
    obtain ⟨i, w⟩ := y
    obtain ⟨hh, hr, hl⟩ := h i w rfl
    simp only [relisted, hh, hl, runOf, hr]

/-- A warrant that has left a list is not on it after another's entry is written. -/
theorem relisted_gone_again {f : Warrant → Option Int} (l : List Entry)
    (h : ∀ i w j u, x = some (i, w) → y = some (j, u) → i ≠ j) :
    relisted W F x (fun _ => none) (relisted W F y f (relisted W F x (fun _ => none) l)) =
      relisted W F y f (relisted W F x (fun _ => none) l) := by
  cases x with
  | none => rfl
  | some a =>
    obtain ⟨i, w⟩ := a
    have hrest : ∀ (p : Entry → Bool) (e : Entry), e ∈ (l.filter (fun e => e.handle.slot != i)).filter p →
        (e.handle.slot != i) = true := fun p e he => (List.mem_filter.mp (List.mem_filter.mp he).1).2
    refine List.filter_eq_self.mpr fun e he => ?_
    cases y with
    | none => exact (List.mem_filter.mp he).2
    | some b =>
      obtain ⟨j, u⟩ := b
      simp only [relisted] at he
      split at he
      · exact hrest _ e he
      · rcases (mem_insertEntry _ _ _).mp he with rfl | he
        · exact bne_iff_ne.mpr fun e => h i w j u rfl rfl e.symm
        · exact hrest _ e he

end Relisted

end Sys2Proof.Machine
end

section
namespace Sys2Proof.Machine

/-! ## What a trip does to warrants, slots and lists (R156, R158) -/

/-- `G` is `F` after a trip's cuts of carriage `c`'s current warrant, which has gone or is marked, and of the top of the
stack in a run-out. -/
structure TripCuts (W : World) (F : Fleet) (c : CarId) (v : Nat) (left : Bool) (G : Fleet) : Prop where
  cars : F.sameCarsBut G c
  gone : left = true → ∀ i w, F.currentOf c = some (i, w) → G.slots[i] = { F.slots[i] with warrant := none }
  marked : left = false → ∀ i w, F.currentOf c = some (i, w) → G.slots[i] = markedSlot W F i w .tripped
  top : ∀ i w, F.runOutTop c = some (i, w) → G.slots[i] = markedSlot W (F.beforeTop c v) i w .tripped
  slots : ∀ i : SlotId, (∀ w, F.currentOf c ≠ some (i, w)) → (∀ w, F.runOutTop c ≠ some (i, w)) → G.slots[i] = F.slots[i]
  list :
    let cut := relisted W F (F.currentOf c)
      (fun w => if v ≤ 5 ∧ (F.cars[c]).state ≠ .tripped then none else some (cutLimit W F w))
      F.occupancy[(F.cars[c]).cfg.run]
    let marked := relisted W F (F.runOutTop c) (fun w => some (cutLimit W (F.beforeTop c v) w)) cut
    G.occupancy[(F.cars[c]).cfg.run] =
      relisted W F (if left = true then F.currentOf c else none) (fun _ => none) marked
  lists : ∀ r : RunId, r ≠ (F.cars[c]).cfg.run → G.occupancy[r] = F.occupancy[r]
  zones : Zoned W F G c
  book : G.Book

/-- The record of carriage `c` after a trip's cuts: what R88 takes with a current warrant that has gone. -/
def cutCar (F : Fleet) (c : CarId) (gone : Bool) (front : Option Int) (k : Carriage) : Carriage :=
  let x := if gone = true then F.currentOf c else none
  { k with
    current := if gone = true then none else k.current
    lastRetire := (x.map (fun y => (y.2.retireOnStop.getD .tripped, F.handleOf y.1))).or k.lastRetire
    holds := { k.holds with keyLost := k.holds.keyLost && !x.any (fun y => y.2.cls == .maintenance) }
    front := if x.isSome = true then front else k.front }

/-- The records agree in all that a trip's cuts read. -/
structure CarAlike (k k' : Carriage) : Prop where
  cfg : k'.cfg = k.cfg
  last : k'.last = k.last
  pose : k'.pose = k.pose
  front : k'.front = k.front
  current : k'.current = k.current
  stack : k'.stack = k.stack
  reversal : k'.holds.reversal = k.holds.reversal

section TripCuts

variable {W : World} {F A B D G : Fleet} {c : CarId} {v : Nat} {gone : Bool}

theorem Fleet.Book.bears_current (h : F.Book) (c : CarId) : F.Bears c (F.currentOf c) := fun _ _ hx => by
  obtain ⟨-, hw, hc, -⟩ := h.currentOf_some hx
  exact ⟨hw, hc⟩

theorem Fleet.Book.bears_top (h : F.Book) (c : CarId) : F.Bears c (F.runOutTop c) := fun _ _ hx => by
  obtain ⟨-, hw, hc, -⟩ := h.topOf_some (Fleet.runOutTop_some hx).2
  exact ⟨hw, hc⟩

/-- With a suspended warrant that supervises, the front does not depend on the current one. -/
theorem frontNow_of_runOutTop {j : SlotId} {u : Warrant} (hb : F.Book) (ht : F.runOutTop c = some (j, u))
    (hl : (G.cars[c]).last = (F.cars[c]).last) (hp : (G.cars[c]).pose = (F.cars[c]).pose)
    (hg : (G.cars[c]).cfg = (F.cars[c]).cfg) (hr : (G.cars[c]).holds.reversal = (F.cars[c]).holds.reversal)
    (hst : (G.cars[c]).stack = (F.cars[c]).stack) (hs : G.slots[j] = F.slots[j]) : G.frontNow c = F.frontNow c := by
  obtain ⟨hrev, htop⟩ := Fleet.runOutTop_some ht
  obtain ⟨hlast, hu, -⟩ := hb.topOf_some htop
  have hG : G.topOf c = some (j, u) := by
    refine topOf_of_handle ?_ (by rw [hs]; exact hu)
    rw [hst, hlast, Fleet.handleOf, Fleet.handleOf, hs]
  refine frontNow_congr hl hp hg ?_
  simp only [Fleet.supervising, Fleet.inRunOut, hr, hrev, if_true, hG, htop]

/-- The record in which the top of the stack is cut: that of `F`, with the front anew when the current warrant went. -/
theorem beforeTop_car (F : Fleet) (c : CarId) (v : Nat) : (F.beforeTop c v).cars[c] = { F.cars[c] with
    front := if v ≤ 5 ∧ (F.cars[c]).state ≠ .tripped ∧ (F.currentOf c).isSome = true then F.frontNow c
      else (F.cars[c]).front } := by
  unfold Fleet.beforeTop
  split
  · simp
  · rfl

theorem beforeTop_slots (F : Fleet) (c : CarId) (v : Nat) : (F.beforeTop c v).slots = F.slots := by
  unfold Fleet.beforeTop
  split <;> rfl

/-- The cut of the top of the stack, after `B` has the current warrant cut. -/
theorem TripCuts.of_top (hF : F.Book) (hB : B.Book) (hcars : F.sameCarsBut B c)
    (hcfg : (B.cars[c]).cfg = (F.cars[c]).cfg) (hpose : (B.cars[c]).pose = (F.cars[c]).pose)
    (hrev : (B.cars[c]).holds.reversal = (F.cars[c]).holds.reversal)
    (hfront : (F.runOutTop c).isSome = true → (B.cars[c]).front = ((F.beforeTop c v).cars[c]).front)
    (hgone : gone = true → ∀ i w, F.currentOf c = some (i, w) → B.slots[i] = { F.slots[i] with warrant := none })
    (hmarked : gone = false → ∀ i w, F.currentOf c = some (i, w) → B.slots[i] = markedSlot W F i w .tripped)
    (hslots : ∀ i : SlotId, (∀ w, F.currentOf c ≠ some (i, w)) → B.slots[i] = F.slots[i])
    (hlimit : gone = true ↔ v ≤ 5 ∧ (F.cars[c]).state ≠ .tripped)
    (hlist : B.occupancy[(F.cars[c]).cfg.run] = relisted W F (F.currentOf c)
      (fun w => if v ≤ 5 ∧ (F.cars[c]).state ≠ .tripped then none else some (cutLimit W F w))
      F.occupancy[(F.cars[c]).cfg.run])
    (hlists : ∀ r : RunId, r ≠ (F.cars[c]).cfg.run → B.occupancy[r] = F.occupancy[r]) (hzones : Zoned W F B c) :
    TripCuts W F c v gone (markAt W B (F.runOutTop c) .tripped) := by
  have hother : ∀ j u, F.runOutTop c = some (j, u) → B.slots[j] = F.slots[j] := fun j u hy =>
    hslots j fun w hx => hF.current_ne_top hx hy rfl
  have hbears : B.Bears c (F.runOutTop c) := fun j u hy => by
    rw [hother j u hy]
    exact hF.bears_top c j u hy
  have hm := markAt_spec W hbears hB .tripped
  have hread : ∀ j u, F.runOutTop c = some (j, u) →
      cutLimit W B u = cutLimit W (F.beforeTop c v) u ∧
        markedSlot W B j u .tripped = markedSlot W (F.beforeTop c v) j u .tripped := by
    intro j u hy
    obtain ⟨-, rfl⟩ := hF.bears_top c j u hy
    have hbt := beforeTop_car F u.carriage v
    have h1 : (B.cars[u.carriage]).cfg = ((F.beforeTop u.carriage v).cars[u.carriage]).cfg := by rw [hbt, hcfg]
    have h2 : (B.cars[u.carriage]).pose = ((F.beforeTop u.carriage v).cars[u.carriage]).pose := by rw [hbt, hpose]
    have h3 : (B.cars[u.carriage]).front = ((F.beforeTop u.carriage v).cars[u.carriage]).front :=
      hfront (by rw [hy]; rfl)
    have h4 : (B.cars[u.carriage]).holds.reversal =
        ((F.beforeTop u.carriage v).cars[u.carriage]).holds.reversal := by rw [hbt, hrev]
    exact ⟨cutLimit_of_car h1 h2 h3 h4, markedSlot_of_car (by rw [hother j u hy, beforeTop_slots]) h1 h2 h3 h4⟩
  refine ⟨fun d hd => ?_, fun hg i w hx => ?_, fun hg i w hx => ?_, fun j u hy => ?_, fun i hx hy => ?_, ?_,
    fun r hr => ?_, ?_, hm.book⟩
  · rw [hm.cars]; exact hcars d hd
  · rw [hm.slots i fun u hy => hF.current_ne_top hx hy rfl]; exact hgone hg i w hx
  · rw [hm.slots i fun u hy => hF.current_ne_top hx hy rfl]; exact hmarked hg i w hx
  · rw [hm.slot j u hy]; exact (hread j u hy).2
  · rw [hm.slots i hy]; exact hslots i hx
  · have hl := hm.list _ (by rw [hcfg])
    rw [hlist, relisted_congr (F := F) (f := fun w => some (cutLimit W (F.beforeTop c v) w)) _ fun j u hy => ?_] at hl
    · rw [hl]
      by_cases hg : gone = true
      · simp only [if_pos hg, if_pos (hlimit.mp hg)]
        exact (relisted_gone_again _ fun i w j u hx hy => hF.current_ne_top hx hy).symm
      · simp only [if_neg hg]
        rfl
    · obtain ⟨-, rfl⟩ := hF.bears_top c j u hy
      exact ⟨by rw [Fleet.handleOf, Fleet.handleOf, hother j u hy], by rw [hcfg], by rw [(hread j u hy).1]⟩
  · rw [hm.lists r (by rw [hcfg]; exact hr)]; exact hlists r hr
  · exact hzones.trans hm.zones

end TripCuts

end Sys2Proof.Machine
end

section
namespace Sys2Proof.Machine

/-! ## The current warrant at a trip, and the top of the stack after it -/

section CutCurrent

variable {W : World} {F A B G : Fleet} {c : CarId} {v : Nat} {left : Bool}

/-- The live warrants of slots that look alike look alike. -/
theorem SlotsAkin.live_map {α : Type} {look : Warrant → α} (h : SlotsAkin look F G) (x : Handle) :
    (G.live x).map look = (F.live x).map look := by
  unfold Fleet.live
  rw [h.generation]
  split
  · exact h.warrant x.slot
  · rfl

/-- The direction of supervision is read off the handles, REVERSAL and the directions of warrants. -/
theorem supervising_dir (hcur : (G.cars[c]).current = (F.cars[c]).current)
    (hst : (G.cars[c]).stack = (F.cars[c]).stack)
    (hrev : (G.cars[c]).holds.reversal = (F.cars[c]).holds.reversal) (hs : SlotsAkin Warrant.dir F G) :
    (G.supervising c).map (fun y => y.2.dir) = (F.supervising c).map (fun y => y.2.dir) := by
  have hmap : ∀ (x : Handle) (H : Fleet), ((H.live x).map (fun w => (x.slot, w))).map (fun y => y.2.dir) =
      (H.live x).map Warrant.dir := fun x H => by rw [Option.map_map]; rfl
  have hC : (G.currentOf c).map (fun y => y.2.dir) = (F.currentOf c).map (fun y => y.2.dir) := by
    unfold Fleet.currentOf
    rw [hcur]
    cases (F.cars[c]).current with
    | none => rfl
    | some x => exact (hmap x G).trans ((hs.live_map x).trans (hmap x F).symm)
  have hT : (G.topOf c).map (fun y => y.2.dir) = (F.topOf c).map (fun y => y.2.dir) := by
    unfold Fleet.topOf
    rw [hst]
    cases (F.cars[c]).stack.getLast? with
    | none => rfl
    | some x => exact (hmap x G).trans ((hs.live_map x).trans (hmap x F).symm)
  unfold Fleet.supervising Fleet.inRunOut
  rw [hrev]
  split
  · cases hF : F.topOf c with
    | none =>
      rw [hF, Option.map_none, Option.map_eq_none_iff] at hT
      rw [hT]
      exact hC
    | some a =>
      rw [hF, Option.map_some, Option.map_eq_some_iff] at hT
      obtain ⟨b, hb, e⟩ := hT
      rw [hb]
      exact congrArg some e
  · exact hC

/-- A mark changes no warrant's direction. -/
theorem MarkedAt.dirs {x : Option (SlotId × Warrant)} {r : Reason} (h : MarkedAt W F c x r G) (hb : F.Bears c x) :
    SlotsAkin Warrant.dir F G := by
  have hslot : ∀ j : SlotId, (∃ w, x = some (j, w)) ∨ G.slots[j] = F.slots[j] := fun j => by
    by_cases hx : ∃ w, x = some (j, w)
    · exact .inl hx
    · exact .inr (h.slots j fun w e => hx ⟨w, e⟩)
  refine ⟨fun j => ?_, fun j => ?_⟩
  · rcases hslot j with ⟨w, e⟩ | e
    · rw [h.slot j w e]; rfl
    · rw [e]
  · rcases hslot j with ⟨w, e⟩ | e
    · rw [h.slot j w e, (hb j w e).1]; rfl
    · rw [e]

theorem MarkedAt.frontNow {x : Option (SlotId × Warrant)} {r : Reason} (h : MarkedAt W F c x r G) (hb : F.Bears c x) :
    G.frontNow c = F.frontNow c :=
  frontNow_congr (by rw [h.cars]) (by rw [h.cars]) (by rw [h.cars])
    (supervising_dir (by rw [h.cars]) (by rw [h.cars]) (by rw [h.cars]) (h.dirs hb))

/-- A current warrant's retirement takes it off the carriage's record. -/
theorem QuitAt.cutCar (hb : F.Book) (h : QuitAt W F c (F.currentOf c) G) :
    G.cars[c] = cutCar F c true (G.frontNow c) F.cars[c] := by
  rw [h.car]
  cases hx : F.currentOf c with
  | none =>
    simp only [Machine.cutCar, if_true, hx, hb.current_none hx, Option.any_none, Option.map_none, Option.isSome_none,
      Bool.not_false, Bool.and_true, Bool.false_eq_true, if_false]
  | some y =>
    obtain ⟨i, w⟩ := y
    have hcur := (hb.currentOf_some hx).1
    have hst : (F.cars[c]).stack.filter (fun h => h != F.handleOf i) = (F.cars[c]).stack :=
      List.filter_eq_self.mpr fun x hm => bne_iff_ne.mpr fun e => hb.current_not_stacked hx (e ▸ hm)
    simp only [Machine.cutCar, if_true, hx, hcur, hst, Option.any_some, decide_true, Bool.true_or, Option.map_some,
      Option.isSome_some]

end CutCurrent

/-! ## The cuts of a trip together -/

section Cuts

variable {W : World} {F : Fleet} {c : CarId} {v : Nat} {left : Bool}

/-- The current warrant goes. -/
theorem tripCut_gone (W : World) {A : Fleet} (hF : F.Book) (hA : A.Book) (ha : CarAlike F.cars[c] A.cars[c])
    (hother : F.sameCarsBut A c) (hs : A.slots = F.slots) (ho : A.occupancy = F.occupancy) (hh : A.holders = F.holders)
    (hlimit : v ≤ 5 ∧ (F.cars[c]).state ≠ .tripped) :
    TripCuts W F c v true (markAt W (quitAt W A (F.currentOf c)) (F.runOutTop c) .tripped) ∧
      (quitAt W A (F.currentOf c)).cars[c] =
        cutCar F c true ((quitAt W A (F.currentOf c)).frontNow c) A.cars[c] := by
  have hx : A.currentOf c = F.currentOf c := currentOf_congr ha.current hs
  have hq : QuitAt W A c (F.currentOf c) (quitAt W A (F.currentOf c)) := by
    refine quitAt_spec W ?_ hA
    rw [← hx]
    exact hA.bears_current c
  generalize quitAt W A (F.currentOf c) = B at hq
  have hcut : B.cars[c] = cutCar F c true (B.frontNow c) A.cars[c] := by
    rw [QuitAt.cutCar hA (hx ▸ hq)]
    simp only [cutCar, hx, Fleet.handleOf, hs]
  have hstack : (B.cars[c]).stack = (F.cars[c]).stack := by rw [hcut]; exact ha.stack
  have hcfg : (B.cars[c]).cfg = (F.cars[c]).cfg := by rw [hcut]; exact ha.cfg
  have hpose : (B.cars[c]).pose = (F.cars[c]).pose := by rw [hcut]; exact ha.pose
  have hlast : (B.cars[c]).last = (F.cars[c]).last := by rw [hcut]; exact ha.last
  have hrev : (B.cars[c]).holds.reversal = (F.cars[c]).holds.reversal := by rw [hcut]; exact ha.reversal
  have hslots : ∀ i : SlotId, (∀ w, F.currentOf c ≠ some (i, w)) → B.slots[i] = F.slots[i] := fun i hi => by
    rw [hq.slots i hi, hs]
  refine ⟨.of_top hF hq.book (fun d hd => (hq.cars d hd).trans (hother d hd)) hcfg hpose hrev (fun hy => ?_)
    (fun _ i w hx => ?_) (fun e => absurd e (by decide)) hslots (iff_of_true rfl hlimit) ?_ (fun r hr => ?_) ?_, hcut⟩
  · obtain ⟨⟨j, u⟩, hy⟩ := Option.isSome_iff_exists.mp hy
    have hnow : B.frontNow c = F.frontNow c := frontNow_of_runOutTop hF hy hlast hpose hcfg hrev hstack
      (hslots j fun w hx => hF.current_ne_top hx hy rfl)
    rw [beforeTop_car, hcut, hnow]
    simp only [cutCar, if_true, hlimit, true_and, ha.front, ne_eq, not_false_eq_true]
  · rw [hq.slot i w hx, hs]
  · rw [hq.list _ (by rw [ha.cfg]), ho]
    refine relisted_congr _ fun i w hi => ⟨by rw [Fleet.handleOf, Fleet.handleOf, hs], ?_, (if_pos hlimit).symm⟩
    obtain ⟨-, rfl⟩ := hF.bears_current c i w hi
    rw [ha.cfg]
  · rw [hq.lists r (by rw [ha.cfg]; exact hr), ho]
  · exact (Zoned.of_same hh ho ha.cfg ha.pose).trans hq.zones

/-- The current warrant is marked. -/
theorem tripCut_marked (W : World) {A : Fleet} (hF : F.Book) (hA : A.Book) (ha : CarAlike F.cars[c] A.cars[c])
    (hother : F.sameCarsBut A c) (hs : A.slots = F.slots) (ho : A.occupancy = F.occupancy) (hh : A.holders = F.holders)
    (hlimit : ¬(v ≤ 5 ∧ (F.cars[c]).state ≠ .tripped)) :
    TripCuts W F c v false (markAt W (markAt W A (F.currentOf c) .tripped) (F.runOutTop c) .tripped) := by
  have hx : A.currentOf c = F.currentOf c := currentOf_congr ha.current hs
  have hm : MarkedAt W A c (F.currentOf c) .tripped (markAt W A (F.currentOf c) .tripped) := by
    refine markAt_spec W ?_ hA .tripped
    rw [← hx]
    exact hA.bears_current c
  generalize markAt W A (F.currentOf c) .tripped = B at hm
  have hread : ∀ i w, F.currentOf c = some (i, w) →
      cutLimit W A w = cutLimit W F w ∧ markedSlot W A i w .tripped = markedSlot W F i w .tripped := by
    intro i w hi
    obtain ⟨-, rfl⟩ := hF.bears_current c i w hi
    exact ⟨cutLimit_of_car ha.cfg ha.pose ha.front ha.reversal,
      markedSlot_of_car (by rw [hs]) ha.cfg ha.pose ha.front ha.reversal⟩
  refine .of_top hF hm.book (fun d hd => by rw [hm.cars]; exact hother d hd) (by rw [hm.cars]; exact ha.cfg)
    (by rw [hm.cars]; exact ha.pose) (by rw [hm.cars]; exact ha.reversal) (fun _ => ?_)
    (fun e => absurd e (by decide)) (fun _ i w hi => ?_) (fun i hi => by rw [hm.slots i hi, hs])
    (iff_of_false (by decide) hlimit) ?_ (fun r hr => ?_) ?_
  · rw [beforeTop_car, if_neg fun e => hlimit ⟨e.1, e.2.1⟩, hm.cars]
    exact ha.front
  · rw [hm.slot i w hi, (hread i w hi).2]
  · rw [hm.list _ (by rw [ha.cfg]), ho]
    refine relisted_congr _ fun i w hi => ⟨by rw [Fleet.handleOf, Fleet.handleOf, hs], ?_, ?_⟩
    · obtain ⟨-, rfl⟩ := hF.bears_current c i w hi
      rw [ha.cfg]
    · rw [if_neg hlimit, (hread i w hi).1]
  · rw [hm.lists r (by rw [ha.cfg]; exact hr), ho]
  · exact (Zoned.of_same hh ho ha.cfg ha.pose).trans hm.zones

end Cuts

end Sys2Proof.Machine
end

section
namespace Sys2Proof.Machine

/-! ## A trip as a whole (R156 to R158) -/

/-- The record of a carriage that trips: its state, its trip record, its count and its level. -/
def trippedCar (W : World) (kind : TripKind) (k : Carriage) : Carriage :=
  let first : Bool := decide (k.state ≠ .tripped)
  let full : Bool := first && decide (k.cfg.threshold ≤ k.tripCount + 1)
  { k with
    state := .tripped
    trip := if first then some { kind := kind, tick := W.now, further := 0 }
      else k.trip.map (fun t => { t with further := min 255 (t.further + 1) })
    tripCount := if full then 0 else if first then k.tripCount + 1 else k.tripCount
    level := if full && decide (k.level < 2) then k.level + 1 else k.level
    holds := { k.holds with trip := first || k.holds.trip } }

/-- `G` is `F` after a trip whose current warrant has gone or is marked (`left`). -/
structure TripStage (W : World) (F : Fleet) (c : CarId) (kind : TripKind) (v : Nat) (left : Bool) (G : Fleet) : Prop where
  cuts : TripCuts W F c v left G
  car : G.cars[c] = cutCar F c left (G.frontNow c) (trippedCar W kind F.cars[c])
  notices :
    let k := F.cars[c]
    let rises : Bool := decide (k.cfg.threshold ≤ k.tripCount + 1) && decide (k.level < 2)
    ∀ n : Fin 15, G.notices[n] =
      if k.state = .tripped then F.notices[n]
      else if n = 0 then (F.notices[n]).occur { carriage := some c, handle := k.current, value := .trip kind }
      else if n = 13 ∧ rises = true then
        (F.notices[n]).occur { carriage := some c, handle := none, value := .downshift (k.level + 1) }
      else F.notices[n]

section Trip

variable {W : World} {F A G : Fleet} {c : CarId} {v : Nat} {left : Bool} {kind : TripKind}

/-- The cuts are what they are for a fleet that differs in nothing they speak of. -/
theorem TripCuts.of_same (h : TripCuts W F c v left A) (hcars : A.sameCarsBut G c) (hs : G.slots = A.slots)
    (ho : G.occupancy = A.occupancy) (hz : Zoned W A G c) (hb : G.Book) : TripCuts W F c v left G where
  cars d hd := (hcars d hd).trans (h.cars d hd)
  gone e i w hx := by rw [hs]; exact h.gone e i w hx
  marked e i w hx := by rw [hs]; exact h.marked e i w hx
  top i w hy := by rw [hs]; exact h.top i w hy
  slots i hx hy := by rw [hs]; exact h.slots i hx hy
  list := by rw [ho]; exact h.list
  lists r hr := by rw [ho]; exact h.lists r hr
  zones := h.zones.trans hz
  book := hb

/-- A count of a trip on a carriage's record (R156, R157). -/
def countedCar (k : Carriage) : Carriage := { k with
  tripCount := if k.cfg.threshold ≤ k.tripCount + 1 then 0 else k.tripCount + 1
  level := if k.cfg.threshold ≤ k.tripCount + 1 ∧ k.level < 2 then k.level + 1 else k.level }

/-- A count changes the carriage's record, and raises DOWNSHIFT when the level rises. -/
theorem countTrip_eq (F : Fleet) (c : CarId) : countTrip F c =
    if (F.cars[c]).cfg.threshold ≤ (F.cars[c]).tripCount + 1 ∧ (F.cars[c]).level < 2 then
      (F.modCar c countedCar).raise
        { carriage := some c, handle := none, value := .downshift ((F.cars[c]).level + 1) }
    else F.modCar c countedCar := by
  have hmod : ∀ f : Carriage → Carriage, f F.cars[c] = countedCar F.cars[c] → F.modCar c f = F.modCar c countedCar :=
    fun f hf => by simp only [Fleet.modCar, hf]
  simp only [countTrip]
  by_cases ht : (F.cars[c]).cfg.threshold ≤ (F.cars[c]).tripCount + 1
  · by_cases hl : (F.cars[c]).level < 2
    · rw [if_pos ht, if_pos hl, if_pos ⟨ht, hl⟩, hmod _ (by simp only [countedCar, if_pos ht, if_pos (And.intro ht hl)])]
    · rw [if_pos ht, if_neg hl, if_neg fun e => hl e.2]
      exact hmod _ (by simp only [countedCar, if_pos ht, if_neg fun e : _ ∧ _ => hl e.2])
  · rw [if_neg ht, if_neg fun e => ht e.1]
    exact hmod _ (by simp only [countedCar, if_neg ht, if_neg fun e : _ ∧ _ => ht e.1])

theorem countTrip_keeps (F : Fleet) (c : CarId) : (countTrip F c).cars = (F.modCar c countedCar).cars ∧
    (countTrip F c).slots = F.slots ∧ (countTrip F c).occupancy = F.occupancy ∧
    (countTrip F c).holders = F.holders := by
  rw [countTrip_eq]
  split
  · exact ⟨rfl, rfl, rfl, rfl⟩
  · exact ⟨rfl, rfl, rfl, rfl⟩

theorem countTrip_notice (F : Fleet) (c : CarId) (n : Fin 15) : (countTrip F c).notices[n] =
    if n = 13 ∧ (F.cars[c]).cfg.threshold ≤ (F.cars[c]).tripCount + 1 ∧ (F.cars[c]).level < 2 then
      (F.notices[n]).occur { carriage := some c, handle := none, value := .downshift ((F.cars[c]).level + 1) }
    else F.notices[n] := by
  rw [countTrip_eq]
  split
  · rename_i hr
    have hk : (NoticeValue.downshift ((F.cars[c]).level + 1)).kind = 13 := rfl
    rw [Fleet.raise_get, Fleet.modCar_notices, hk]
    simp only [hr, and_true]
  · rename_i hr
    exact (if_neg fun e => hr e.2).symm

/-- A mark of the top leaves the carriage's record, its front computed anew too. -/
theorem markAt_top {B : Fleet} (hb : B.Book) (hF : F.Book) (hs : ∀ j u, F.runOutTop c = some (j, u) → B.slots[j] = F.slots[j]) :
    (markAt W B (F.runOutTop c) .tripped).cars = B.cars ∧
      (markAt W B (F.runOutTop c) .tripped).notices = B.notices ∧
      (markAt W B (F.runOutTop c) .tripped).frontNow c = B.frontNow c := by
  have hbears : B.Bears c (F.runOutTop c) := fun j u hy => by rw [hs j u hy]; exact hF.bears_top c j u hy
  have hm := markAt_spec W hbears hb .tripped
  exact ⟨hm.cars, hm.notices, hm.frontNow hbears⟩

end Trip

end Sys2Proof.Machine
end

section
namespace Sys2Proof.Machine

section Trip

variable {W : World} {F A B G : Fleet} {c : CarId} {v : Nat} {left : Bool} {kind : TripKind}

/-- A carriage's record put in place. -/
theorem CarAlike.modCar (f : Carriage → Carriage) (h : CarAlike F.cars[c] (f F.cars[c])) :
    CarAlike F.cars[c] (F.modCar c f).cars[c] := by
  rw [Fleet.modCar_get_self]
  exact h

theorem CarAlike.book {f : Carriage → Carriage} (h : CarAlike F.cars[c] (f F.cars[c])) (hF : F.Book) :
    (F.modCar c f).Book :=
  (Akin.modCar F c f ⟨h.cfg, h.pose, h.current, h.stack⟩).book.book hF

/-- What the cuts leave of a carriage's record, once the top of the stack is cut too. -/
structure CutStage (W : World) (F : Fleet) (c : CarId) (v : Nat) (left : Bool) (k' : Carriage) (G : Fleet) : Prop where
  cuts : TripCuts W F c v left G
  car : G.cars[c] = cutCar F c left (G.frontNow c) k'
  notices : G.notices = F.notices

/-- The cuts of a trip, from the fleet with the trip on the carriage's record. -/
theorem cutStage_of_trip (W : World) (hF : F.Book) {f : Carriage → Carriage} (ha : CarAlike F.cars[c] (f F.cars[c])) :
    (v ≤ 5 ∧ (F.cars[c]).state ≠ .tripped → CutStage W F c v true (f F.cars[c])
      (markTop W (quitAt W (F.modCar c f) (F.currentOf c)) c .tripped)) ∧
    (¬(v ≤ 5 ∧ (F.cars[c]).state ≠ .tripped) → CutStage W F c v false (f F.cars[c])
      (markTop W (markAt W (F.modCar c f) (F.currentOf c) .tripped) c .tripped)) := by
  have hA : (F.modCar c f).Book := ha.book hF
  have hal : CarAlike F.cars[c] (F.modCar c f).cars[c] := .modCar f ha
  have hself : (F.modCar c f).cars[c] = f F.cars[c] := Fleet.modCar_get_self F c f
  have hother : F.sameCarsBut (F.modCar c f) c := fun d hd => F.modCar_get_other f hd
  have hx : (F.modCar c f).currentOf c = F.currentOf c := currentOf_congr hal.current rfl
  have hbears : (F.modCar c f).Bears c (F.currentOf c) := by
    rw [← hx]; exact hA.bears_current c
  constructor
  · intro hl
    obtain ⟨hcuts, hcar⟩ := tripCut_gone W hF hA hal hother rfl rfl rfl hl
    have hq := quitAt_spec W hbears hA
    generalize quitAt W (F.modCar c f) (F.currentOf c) = B at hcuts hcar hq
    have hslots : ∀ j u, F.runOutTop c = some (j, u) → B.slots[j] = F.slots[j] := fun j u hy =>
      hq.slots j fun w hx => hF.current_ne_top hx hy rfl
    obtain ⟨hmc, hmn, hmf⟩ := markAt_top (W := W) hq.book hF hslots
    rw [markTop_eq hF (by rw [hcar]; exact hal.stack) (by rw [hcar]; exact hal.reversal) hslots]
    refine ⟨hcuts, ?_, hmn.trans hq.notices⟩
    rw [hmf, hmc, hcar, hself]
  · intro hl
    have hcuts := tripCut_marked W hF hA hal hother rfl rfl rfl hl
    have hm := markAt_spec W hbears hA .tripped
    generalize markAt W (F.modCar c f) (F.currentOf c) .tripped = B at hcuts hm
    have hslots : ∀ j u, F.runOutTop c = some (j, u) → B.slots[j] = F.slots[j] := fun j u hy =>
      hm.slots j fun w hx => hF.current_ne_top hx hy rfl
    obtain ⟨hmc, hmn, -⟩ := markAt_top (W := W) hm.book hF hslots
    rw [markTop_eq hF (by rw [hm.cars]; exact hal.stack) (by rw [hm.cars]; exact hal.reversal) hslots]
    refine ⟨hcuts, ?_, hmn.trans hm.notices⟩
    rw [hmc, hm.cars, hself]
    simp [cutCar]

/-- A first trip (R156). -/
theorem firstTrip_stage (W : World) (hF : F.Book) (hs : (F.cars[c]).state ≠ .tripped) (kind : TripKind) (v : Nat) :
    TripStage W F c kind v (decide (v ≤ 5)) (firstTrip W F c kind v) := by
  let f : Carriage → Carriage := fun k => { k with
    state := .tripped, trip := some { kind := kind, tick := W.now, further := 0 }, holds := k.holds.add .trip }
  have ha : CarAlike F.cars[c] (f F.cars[c]) := ⟨rfl, rfl, rfl, rfl, rfl, rfl, rfl⟩
  have hstop : stopCurrent W (F.modCar c f) c v =
      if v ≤ 5 then quitAt W (F.modCar c f) (F.currentOf c) else markAt W (F.modCar c f) (F.currentOf c) .tripped := by
    have hA : (F.modCar c f).Book := ha.book hF
    rw [stopCurrent_of_tripped hA (by rw [Fleet.modCar_get_self]), currentOf_congr (F := F) (CarAlike.modCar f ha).current rfl]
  have hcut : CutStage W F c v (decide (v ≤ 5)) (f F.cars[c]) (markTop W (stopCurrent W (F.modCar c f) c v) c .tripped) := by
    obtain ⟨hgone, hmarked⟩ := cutStage_of_trip (v := v) W hF ha
    rw [hstop]
    by_cases hv : v ≤ 5
    · rw [if_pos hv, decide_eq_true hv]
      exact hgone ⟨hv, hs⟩
    · rw [if_neg hv, decide_eq_false hv]
      exact hmarked fun e => hv e.1
  have htrip : firstTrip W F c kind v = (countTrip (markTop W (stopCurrent W (F.modCar c f) c v) c .tripped) c).raise
      { carriage := some c, handle := (F.cars[c]).current, value := .trip kind } := rfl
  rw [htrip]
  generalize markTop W (stopCurrent W (F.modCar c f) c v) c .tripped = D at hcut
  obtain ⟨hcars, hslots, hocc, hhold⟩ := countTrip_keeps D c
  have hself : (countTrip D c).cars[c] = countedCar D.cars[c] := by rw [hcars, Fleet.modCar_get_self]
  have hfull : (D.cars[c]).cfg = (F.cars[c]).cfg ∧ (D.cars[c]).tripCount = (F.cars[c]).tripCount ∧
      (D.cars[c]).level = (F.cars[c]).level := by
    rw [hcut.car]; exact ⟨rfl, rfl, rfl⟩
  obtain ⟨hcfg, hcount, hlevel⟩ := hfull
  have hbook : (countTrip D c).Book := by
    refine BookAkin.book ⟨fun d => ?_, fun d => ?_, .of_eq hslots⟩ hcut.cuts.book
    · rw [hcars]
      exact D.modCar_rel (R := fun k k' => k'.current = k.current) (fun _ => rfl) c _ rfl d
    · rw [hcars]
      exact D.modCar_rel (R := fun k k' => k'.stack = k.stack) (fun _ => rfl) c _ rfl d
  have hfront : ((countTrip D c).raise
      { carriage := some c, handle := (F.cars[c]).current, value := .trip kind }).frontNow c = D.frontNow c :=
    frontNow_congr (by rw [Fleet.raise_cars, hself]; rfl) (by rw [Fleet.raise_cars, hself]; rfl)
      (by rw [Fleet.raise_cars, hself]; rfl)
      (congrArg _ (supervising_congr (by rw [Fleet.raise_cars, hself]; rfl) (by rw [Fleet.raise_cars, hself]; rfl)
        (by rw [Fleet.raise_cars, hself]; rfl) hslots))
  refine ⟨hcut.cuts.of_same (fun d hd => ?_) hslots hocc (.of_same hhold hocc ?_ ?_) ((Akin.raise _ _).book.book hbook),
    ?_, fun n => ?_⟩
  · rw [Fleet.raise_cars, hcars]; exact D.modCar_get_other _ hd
  · rw [Fleet.raise_cars, hself]; rfl
  · rw [Fleet.raise_cars, hself]; rfl
  · rw [hfront, Fleet.raise_cars, hself, hcut.car]
    have hfirst : decide ((F.cars[c]).state ≠ .tripped) = true := decide_eq_true hs
    simp only [trippedCar, hfirst, Bool.true_and, Bool.true_or, if_true, Bool.and_eq_true, decide_eq_true_eq]
    rfl
  · have hk : (NoticeValue.trip kind).kind = 0 := rfl
    rw [Fleet.raise_get, countTrip_notice, hcut.notices, hcfg, hcount, hlevel, hk, if_neg hs]
    by_cases hn : n = 0
    · subst hn
      simp only [if_true]
      rfl
    · simp only [if_neg hn, Bool.and_eq_true, decide_eq_true_eq]

/-- A further trip that a report raises (R158). -/
theorem furtherTrip_stage (W : World) (hF : F.Book) (hs : (F.cars[c]).state = .tripped) (kind : TripKind) (v : Nat) :
    TripStage W F c kind v false (furtherTrip W F c v false) := by
  let f : Carriage → Carriage := fun k => { k with
    trip := k.trip.map (fun t => { t with further := min 255 (t.further + 1) }) }
  have ha : CarAlike F.cars[c] (f F.cars[c]) := ⟨rfl, rfl, rfl, rfl, rfl, rfl, rfl⟩
  have htrip : furtherTrip W F c v false =
      markTop W (markAt W (F.modCar c f) (F.currentOf c) .tripped) c .tripped := by
    rw [← currentOf_congr (F := F) (CarAlike.modCar f ha).current rfl]
    rfl
  have hcut := (cutStage_of_trip (v := v) W hF ha).2 fun e => e.2 hs
  rw [htrip]
  refine ⟨hcut.cuts, ?_, fun n => by rw [if_pos hs, hcut.notices]⟩
  rw [hcut.car]
  have hfirst : decide ((F.cars[c]).state ≠ .tripped) = false := decide_eq_false fun e => e hs
  simp only [trippedCar, hfirst, Bool.false_and, Bool.false_or, Bool.false_eq_true, if_false]
  rw [← hs]

/-- A trip that a report raises. -/
theorem trip_stage (W : World) (hF : F.Book) (c : CarId) (kind : TripKind) (v : Nat) :
    TripStage W F c kind v (decide (v ≤ 5 ∧ (F.cars[c]).state ≠ .tripped)) (trip W F c kind v false) := by
  unfold trip
  by_cases hs : (F.cars[c]).state = .tripped
  · rw [if_pos hs, decide_eq_false fun e => e.2 hs]
    exact furtherTrip_stage W hF hs kind v
  · rw [if_neg hs]
    have := firstTrip_stage W hF hs kind v
    have e : decide (v ≤ 5 ∧ (F.cars[c]).state ≠ .tripped) = decide (v ≤ 5) := by
      rw [decide_eq_decide]
      exact and_iff_left hs
    rw [e]
    exact this

end Trip

end Sys2Proof.Machine
end

section
namespace Sys2Proof.Machine

/-! ## A trip by a report, to the end of its stages (R32, R100, R123) -/

section TripActs

variable {W : World} {F E G : Fleet} {c : CarId} {v : Nat} {left : Bool} {kind : TripKind}

theorem TripStage.tripped (h : TripStage W F c kind v left E) : (E.cars[c]).state = .tripped := by
  rw [h.car]; rfl

/-- The current warrant as a trip left it marked. -/
def markedWarrant (W : World) (F : Fleet) (i : SlotId) (w : Warrant) : Warrant :=
  ((markedSlot W F i w .tripped).warrant).getD w

theorem markedWarrant_keeps (W : World) (F : Fleet) (i : SlotId) (w : Warrant) :
    (markedWarrant W F i w).retireOnStop = some (w.retireOnStop.getD .tripped) ∧
      (markedWarrant W F i w).cls = w.cls ∧ (markedWarrant W F i w).carriage = w.carriage := ⟨rfl, rfl, rfl⟩

/-- The current warrant that a trip marked. -/
theorem TripStage.currentOf (h : TripStage W F c kind v false E) (hF : F.Book) :
    E.currentOf c = (F.currentOf c).map (fun y => (y.1, markedWarrant W F y.1 y.2)) := by
  have hcur : (E.cars[c]).current = (F.cars[c]).current := by rw [h.car]; rfl
  cases hx : F.currentOf c with
  | none => exact currentOf_none (hcur.trans (hF.current_none hx))
  | some y =>
    obtain ⟨i, w⟩ := y
    have hs := h.cuts.marked rfl i w hx
    refine currentOf_of_handle ?_ (by rw [hs]; rfl)
    rw [hcur, (hF.currentOf_some hx).1, Fleet.handleOf, Fleet.handleOf, hs]
    rfl

/-- The top of the stack that a trip marked. -/
theorem TripStage.runOutTop (h : TripStage W F c kind v left E) (hF : F.Book) :
    E.runOutTop c = (F.runOutTop c).map (fun y => (y.1, markedWarrant W (F.beforeTop c v) y.1 y.2)) := by
  have hst : (E.cars[c]).stack = (F.cars[c]).stack := by rw [h.car]; rfl
  have hrev : (E.cars[c]).holds.reversal = (F.cars[c]).holds.reversal := by rw [h.car]; rfl
  cases hy : F.runOutTop c with
  | none =>
    rw [Option.map_none, Fleet.runOutTop, hrev]
    by_cases hr : (F.cars[c]).holds.reversal = true
    · rw [if_pos hr]
      rw [Fleet.runOutTop, if_pos hr] at hy
      refine topOf_none (hst.trans ?_)
      by_contra hne
      obtain ⟨x, hx⟩ := Option.isSome_iff_exists.mp (List.getLast?_isSome.mpr hne)
      obtain ⟨w, hw, -⟩ := hF.stacked c x (List.mem_of_getLast? hx)
      simp only [Fleet.topOf, hx, hw, Option.map_some] at hy
      cases hy
    · rw [if_neg hr]
  | some y =>
    obtain ⟨j, u⟩ := y
    obtain ⟨hr, ht⟩ := Fleet.runOutTop_some hy
    have hs := h.cuts.top j u hy
    rw [Fleet.runOutTop, if_pos (hrev.trans hr)]
    refine topOf_of_handle ?_ (by rw [hs]; rfl)
    rw [hst, (hF.topOf_some ht).1, Fleet.handleOf, Fleet.handleOf, hs, ← beforeTop_slots F c v]
    rfl

/-- With the trip's marks made, the marked current warrant goes at a standstill report. -/
theorem TripStage.quit (h : TripStage W F c kind v false E) (hF : F.Book) :
    TripStage W F c kind v true (quitAt W E (E.currentOf c)) := by
  have hE : E.Book := h.cuts.book
  have hq := quitAt_spec W (hE.bears_current c) hE
  have hcar := hq.cutCar hE
  have hcur := h.currentOf hF
  have hrun : (E.cars[c]).cfg.run = (F.cars[c]).cfg.run := by rw [h.car]; rfl
  have hself : E.cars[c] = trippedCar W kind F.cars[c] := by
    rw [h.car]
    simp [cutCar]
  have hhandle : ∀ i w, F.currentOf c = some (i, w) → E.handleOf i = F.handleOf i := fun i w hx => by
    rw [Fleet.handleOf, Fleet.handleOf, h.cuts.marked rfl i w hx]
    rfl
  have hnot : ∀ i, (∀ w, F.currentOf c ≠ some (i, w)) → ∀ w, E.currentOf c ≠ some (i, w) := fun i hi w e => by
    rw [hcur, Option.map_eq_some_iff] at e
    obtain ⟨⟨j, u⟩, hx, e⟩ := e
    obtain ⟨rfl, -⟩ := Prod.mk.inj e
    exact hi u hx
  have hsome : ∀ i w, F.currentOf c = some (i, w) → E.currentOf c = some (i, markedWarrant W F i w) := fun i w hx => by
    rw [hcur, hx]
    rfl
  refine ⟨⟨fun d hd => (hq.cars d hd).trans (h.cuts.cars d hd), fun _ i w hx => ?_, fun e => absurd e (by decide),
    fun j u hy => ?_, fun i hx hy => ?_, ?_, fun r hr => ?_, h.cuts.zones.trans hq.zones, hq.book⟩, ?_, ?_⟩
  · rw [hq.slot i _ (hsome i w hx), h.cuts.marked rfl i w hx]
    rfl
  · rw [hq.slots j (hnot j fun w hx => hF.current_ne_top hx hy rfl)]
    exact h.cuts.top j u hy
  · rw [hq.slots i (hnot i hx)]
    exact h.cuts.slots i hx hy
  · have hl := hq.list _ hrun.symm
    rw [h.cuts.list] at hl
    rw [hl]
    simp only [Bool.false_eq_true, if_false, if_true]
    cases hx : F.currentOf c with
    | none => rw [hcur, hx]; rfl
    | some y => rw [hcur, hx]; rfl
  · rw [hq.lists r (by rw [hrun]; exact hr)]
    exact h.cuts.lists r hr
  · rw [hcar, hself]
    cases hx : F.currentOf c with
    | none => simp only [cutCar, if_true, hcur, hx, Option.map_none]
    | some y =>
      obtain ⟨i, w⟩ := y
      obtain ⟨hreason, hcls, -⟩ := markedWarrant_keeps W F i w
      simp only [cutCar, if_true, hcur, hx, Option.map_some, Option.any_some, hhandle i w hx, hreason, hcls,
        Option.getD_some, Option.isSome_some]
  · rw [hq.notices]
    exact h.notices

/-- With the current warrant gone at the trip there is nothing left to retire. -/
theorem TripStage.currentOf_gone (h : TripStage W F c kind v true E) : E.currentOf c = none :=
  currentOf_none (by rw [h.car]; rfl)

/-- Stage 1 of the progress of a report that tripped (R100). -/
theorem TripStage.stop (h : TripStage W F c kind v (decide (v ≤ 5 ∧ (F.cars[c]).state ≠ .tripped)) E) (hF : F.Book) :
    TripStage W F c kind v (decide (v ≤ 5)) (stopStage W E c v) ∧ Zoned W E (stopStage W E c v) c := by
  by_cases hv : v ≤ 5
  · by_cases hs : (F.cars[c]).state ≠ .tripped
    · rw [decide_eq_true (And.intro hv hs)] at h
      have hsame : stopStage W E c v = E := by simp only [stopStage, h.currentOf_gone]
      rw [hsame, decide_eq_true hv]
      exact ⟨h, .refl W E c⟩
    · rw [decide_eq_false fun e => hs e.2] at h
      have hE : E.Book := h.cuts.book
      have hm : ∀ i w, E.currentOf c = some (i, w) → w.retireOnStop.isSome = true := fun i w hx => by
        rw [h.currentOf hF, Option.map_eq_some_iff] at hx
        obtain ⟨y, -, e⟩ := hx
        obtain ⟨-, rfl⟩ := Prod.mk.inj e
        rfl
      rw [stopStage_of_tripped hE h.tripped hm, if_pos hv, decide_eq_true hv]
      exact ⟨h.quit hF, (quitAt_spec W (hE.bears_current c) hE).zones⟩
  · rw [stopStage_of_moving (Nat.not_le.mp hv), decide_eq_false hv]
    rw [decide_eq_false fun e => hv e.1] at h
    exact ⟨h, .refl W E c⟩

end TripActs

end Sys2Proof.Machine
end

section
namespace Sys2Proof.Machine

section TripActs

variable {W W' : World} {F P E G : Fleet} {c : CarId} {v : Nat} {left : Bool} {kind : TripKind}

/-- A trip by a report of a moving carriage. -/
theorem TripStage.acts_moving (h : TripStage W F c kind v (decide (v ≤ 5)) G) (hv : 5 < v) (hz : Rezoned W F G c) :
    TripActs W F c kind v true G := by
  have hn : ¬v ≤ 5 := Nat.not_le.mpr hv
  rw [decide_eq_false hn] at h
  refine ⟨?_, h.cuts.cars, h.notices, fun _ _ _ e => absurd e hn, fun i w hx _ => h.cuts.marked rfl i w hx,
    fun _ _ _ _ e => absurd e hn, fun i w hy _ => h.cuts.top i w hy, h.cuts.slots, ?_, h.cuts.lists, hz⟩
  · have hcar := h.car
    simp only [cutCar, trippedCar, Bool.false_eq_true, if_false, Option.isSome_none, Option.any_none, Bool.not_false,
      Bool.and_true, Option.map_none, Option.none_or] at hcar
    simp only [hn, if_false, decide_false, Bool.and_false, Bool.false_eq_true, Option.isSome_none, Option.any_none,
      Bool.not_false, Bool.and_true, Option.map_none, Option.none_or, Option.or_none, false_and, or_self]
    exact hcar
  · have hl := h.cuts.list
    simp only [Bool.false_eq_true, if_false] at hl
    show _ = relisted W F (if true = true ∧ v ≤ 5 then _ else _) _ (relisted W F (if v ≤ 5 then _ else _) _ _)
    rw [if_neg fun e => hn e.2, if_neg hn]
    exact hl

/-- A trip by a standstill report out of a run-out. -/
theorem TripStage.acts_standing (h : TripStage W F c kind v (decide (v ≤ 5)) G) (hv : v ≤ 5)
    (hr : (F.cars[c]).holds.reversal = false) (hz : Rezoned W F G c) : TripActs W F c kind v true G := by
  rw [decide_eq_true hv] at h
  have hy : F.runOutTop c = none := by rw [Fleet.runOutTop, hr]; rfl
  refine ⟨?_, h.cuts.cars, h.notices, fun i w hx _ => h.cuts.gone rfl i w hx, fun _ _ _ e => absurd hv (Nat.not_le.mpr e),
    fun _ _ e => by (rw [hy] at e; cases e), fun _ _ e => by (rw [hy] at e; cases e), h.cuts.slots, ?_, h.cuts.lists, hz⟩
  · have hcar := h.car
    simp only [cutCar, trippedCar, if_true] at hcar
    simp only [hv, hy, hr, if_true, decide_true, Bool.and_true, ite_self, Option.any_none, Bool.not_false,
      Option.none_or, Bool.false_and, Bool.false_eq_true, and_false, or_false]
    simp only [hcar, hr]
  · have hl := h.cuts.list
    simp only [if_true, hy] at hl
    show _ = relisted W F (if true = true ∧ v ≤ 5 then F.runOutTop c else _) _
      (relisted W F (if v ≤ 5 then _ else _) _ (relisted W F (F.runOutTop c) _ _))
    rw [if_pos ⟨rfl, hv⟩, if_pos hv, hy]
    exact hl

end TripActs

end Sys2Proof.Machine
end

section
namespace Sys2Proof.Machine

section TripEnds

variable {W W' : World} {F P E G : Fleet} {c : CarId} {v : Nat} {left : Bool} {kind : TripKind}

theorem runOutTop_of_reversal (h : (F.cars[c]).holds.reversal = true) : F.runOutTop c = F.topOf c := by
  rw [Fleet.runOutTop, if_pos h]

/-- A marked warrant on top of the stack retires at the end of a run-out (R123). -/
def topLeaves (W : World) (F : Fleet) (c : CarId) : Fleet :=
  match F.topOf c with
  | some (i, w) =>
    match w.retireOnStop with
    | some reason => retire W F i reason
    | none => F
  | none => F

/-- The ceiling of the current warrant is computed anew at the end of a run-out (R123). -/
def currentReceiled (W : World) (F : Fleet) (c : CarId) : Fleet :=
  match F.currentOf c with
  | some (i, _) => receiling W F i
  | none => F

theorem endRunOut_eq (W : World) (hv : v ≤ 5) (hr : (F.cars[c]).holds.reversal = true) : endRunOut W F c v =
    attempt W (refront (currentReceiled W ((topLeaves W F c).removeHold c .reversal) c) c) c := by
  have hgo : (standstill v && F.inRunOut c) = true := by
    rw [Fleet.inRunOut, hr, standstill, decide_eq_true hv]
    rfl
  unfold endRunOut
  rw [if_pos hgo]
  rfl

theorem endRunOut_of_moving (hv : 5 < v) : endRunOut W F c v = F := by
  have hs : standstill v = false := decide_eq_false (Nat.not_le.mpr hv)
  rw [endRunOut, hs]
  rfl

/-- The end of the run-out of a TRIPPED carriage without a current warrant, its top warrant marked (R123). -/
theorem endRunOut_of_tripped (hb : E.Book) (hs : (E.cars[c]).state = .tripped) (hr : (E.cars[c]).holds.reversal = true)
    (hc : (E.cars[c]).current = none) (hm : ∀ j u, E.runOutTop c = some (j, u) → u.retireOnStop.isSome = true)
    (hv : v ≤ 5) : endRunOut W E c v = refront ((quitAt W E (E.runOutTop c)).removeHold c .reversal) c := by
  have hq := quitAt_spec W (hb.bears_top c) hb
  have hquit : topLeaves W E c = quitAt W E (E.runOutTop c) := by
    rw [runOutTop_of_reversal hr] at hm ⊢
    unfold topLeaves
    cases ht : E.topOf c with
    | none => rfl
    | some y =>
      obtain ⟨j, u⟩ := y
      obtain ⟨r, hreason⟩ := Option.isSome_iff_exists.mp (hm j u ht)
      obtain ⟨-, hu, rfl, -⟩ := hb.topOf_some ht
      simp only [hreason, quitAt, Option.getD_some, retire_of_tripped hu hs]
  rw [endRunOut_eq W hv hr, hquit]
  generalize quitAt W E (E.runOutTop c) = J at hq
  have hself : (J.removeHold c .reversal).cars[c] = { J.cars[c] with holds := (J.cars[c]).holds.remove .reversal } :=
    Fleet.modCar_get_self _ _ _
  have hcur : (J.removeHold c .reversal).currentOf c = none := by
    refine currentOf_none ?_
    rw [hself, hq.car]
    simp only [hc, ite_self]
  simp only [currentReceiled, hcur]
  refine attempt_of_tripped ?_
  rw [refront_get, if_pos rfl, hself, hq.car]
  exact hs

/-- A trip by a standstill report in a run-out, with the end of the run-out. -/
theorem TripStage.acts_ended (h : TripStage W F c kind v (decide (v ≤ 5)) E) (hF : F.Book) (hv : v ≤ 5)
    (hr : (F.cars[c]).holds.reversal = true) (hz : Rezoned W F E c) :
    TripActs W F c kind v true (endRunOut W E c v) := by
  rw [decide_eq_true hv] at h
  have hE : E.Book := h.cuts.book
  have hrE : (E.cars[c]).holds.reversal = true := by rw [h.car]; exact hr
  have hcE : (E.cars[c]).current = none := by rw [h.car]; rfl
  have htop := h.runOutTop hF
  have hmark : ∀ j u, E.runOutTop c = some (j, u) → u.retireOnStop.isSome = true := fun j u hu => by
    rw [htop, Option.map_eq_some_iff] at hu
    obtain ⟨y, -, e⟩ := hu
    obtain ⟨-, rfl⟩ := Prod.mk.inj e
    rfl
  rw [endRunOut_of_tripped hE h.tripped hrE hcE hmark hv]
  have hq := quitAt_spec W (hE.bears_top c) hE
  generalize quitAt W E (E.runOutTop c) = J at hq
  let H : Fleet := refront (J.removeHold c .reversal) c
  have hself : H.cars[c] = { J.cars[c] with
      holds := (J.cars[c]).holds.remove .reversal, front := H.frontNow c } := by
    have hrem : (J.removeHold c .reversal).cars[c] = { J.cars[c] with holds := (J.cars[c]).holds.remove .reversal } :=
      Fleet.modCar_get_self _ _ _
    rw [frontNow_refront, refront_get, if_pos rfl, hrem]
  have hother : ∀ d : CarId, d ≠ c → H.cars[d] = F.cars[d] := fun d hd => by
    rw [refront_get, if_neg hd, Fleet.removeHold, Fleet.modCar_get_other _ _ hd, hq.cars d hd, h.cuts.cars d hd]
  have hrun : (E.cars[c]).cfg.run = (F.cars[c]).cfg.run := by rw [h.car]; rfl
  have hnot : ∀ j, (∀ u, F.runOutTop c ≠ some (j, u)) → ∀ u, E.runOutTop c ≠ some (j, u) := fun j hj u e => by
    rw [htop, Option.map_eq_some_iff] at e
    obtain ⟨⟨i, w⟩, hy, e⟩ := e
    obtain ⟨rfl, -⟩ := Prod.mk.inj e
    exact hj w hy
  have hhandle : ∀ j u, F.runOutTop c = some (j, u) → E.handleOf j = F.handleOf j := fun j u hy => by
    rw [Fleet.handleOf, Fleet.handleOf, h.cuts.top j u hy, ← beforeTop_slots F c v]
    rfl
  have hzones : Zoned W J H c := .of_same rfl rfl (by rw [hself]) (by rw [hself])
  refine ⟨?_, hother, fun n => ?_, fun i w hx _ => ?_, fun _ _ _ e => absurd hv (Nat.not_le.mpr e),
    fun j u hy _ _ => ?_, fun _ _ _ e => absurd hv (Nat.not_le.mpr (e.resolve_left (by decide))), fun i hx hy => ?_, ?_,
    fun r hr => ?_, (hz.zoned hq.zones).zoned hzones⟩
  · have hcar := hq.car
    simp only [htop, h.car] at hcar
    simp only [hv, hr, if_true, decide_true, Bool.and_true, Bool.not_true, Bool.and_false, and_self, or_true]
    show H.cars[c] = _
    rw [hself, hcar]
    cases hy : F.runOutTop c with
    | none =>
      simp only [cutCar, trippedCar, if_true, Option.map_none, Option.none_or, Option.any_none, Bool.not_false,
        Bool.and_true, ite_self]
      rfl
    | some y =>
      obtain ⟨j, u⟩ := y
      obtain ⟨hreason, hcls, -⟩ := markedWarrant_keeps W (F.beforeTop c v) j u
      simp only [cutCar, trippedCar, if_true, Option.map_some, Option.some_or, Option.any_some, hreason, hcls,
        hhandle j u hy, Option.getD_some, ite_self]
      rfl
  · show J.notices[n] = _
    rw [hq.notices]
    exact h.notices n
  · show J.slots[i] = _
    rw [hq.slots i (hnot i fun u hy => hF.current_ne_top hx hy rfl)]
    exact h.cuts.gone rfl i w hx
  · show J.slots[j] = _
    rw [hq.slot j _ (by rw [htop, hy]; rfl), h.cuts.top j u hy, ← beforeTop_slots F c v]
    rfl
  · show J.slots[i] = _
    rw [hq.slots i (hnot i hy)]
    exact h.cuts.slots i hx hy
  · have hl := hq.list _ hrun.symm
    rw [h.cuts.list] at hl
    show J.occupancy[(F.cars[c]).cfg.run] = relisted W F (if true = true ∧ v ≤ 5 then F.runOutTop c else _) _
      (relisted W F (if v ≤ 5 then _ else _) _ _)
    rw [if_pos ⟨rfl, hv⟩, if_pos hv, hl, htop]
    cases F.runOutTop c with
    | none => rfl
    | some y => rfl
  · show J.occupancy[r] = _
    rw [hq.lists r (by rw [hrun]; exact hr)]
    exact h.cuts.lists r hr

end TripEnds

end Sys2Proof.Machine
end

section
namespace Sys2Proof.Machine

section ReportTrips

variable {W W' : World} {F P E G : Fleet} {c : CarId} {v : Nat} {left : Bool} {kind : TripKind}

theorem SameGround.symm (g : SameGround W W') : SameGround W' W where
  track := ⟨g.track.locked.symm, g.track.zones.symm, fun r => (g.track.defined r).symm, fun r => (g.track.bays r).symm⟩
  now := g.now.symm
  wind := g.wind.symm
  exposed r := (g.exposed r).symm
  bay r b := (g.bay r b).symm

/-- What a trip cuts is the same in a world that differs in marks alone. -/
theorem SameGround.tripStage (g : SameGround W W') (h : TripStage W F c kind v left G) :
    TripStage W' F c kind v left G := by
  have hcuts := h.cuts
  refine ⟨⟨hcuts.cars, hcuts.gone, fun e i w hx => ?_, fun i w hy => ?_, hcuts.slots, ?_, hcuts.lists,
    g.zoned.mpr hcuts.zones, hcuts.book⟩, ?_, h.notices⟩
  · rw [g.markedSlot]; exact hcuts.marked e i w hx
  · rw [g.markedSlot]; exact hcuts.top i w hy
  · simp only [g.relisted, g.cutLimit]; exact hcuts.list
  · simp only [trippedCar, g.now]; exact h.car

/-- What a trip leaves is the same in a world that differs in marks alone. -/
theorem SameGround.tripActs (g : SameGround W W') (h : TripActs W F c kind v true G) :
    TripActs W' F c kind v true G := by
  refine ⟨?_, h.cars, h.notices, h.stopped, fun i w hx hv => ?_, h.ended, fun i w hy hv => ?_, h.slots, ?_, h.lists,
    g.rezoned.mpr h.zones⟩
  · rw [g.now]; exact h.car
  · rw [g.markedSlot]; exact h.marked i w hx hv
  · rw [g.markedSlot]; exact h.top i w hy hv
  · simpa only [g.relisted, g.cutLimit] using h.list

/-- A trip's stages after the cuts, to the end of the report (R32). -/
theorem TripStage.acts (h : TripStage W F c kind v (decide (v ≤ 5 ∧ (F.cars[c]).state ≠ .tripped)) E) (hF : F.Book)
    (hz : Rezoned W F E c) : TripActs W F c kind v true (endRunOut W (stopStage W E c v) c v) := by
  obtain ⟨hs, hzoned⟩ := h.stop hF
  have hzones : Rezoned W F (stopStage W E c v) c := hz.zoned hzoned
  by_cases hv : v ≤ 5
  · by_cases hr : (F.cars[c]).holds.reversal = true
    · exact hs.acts_ended hF hv hr hzones
    · have hno : ((stopStage W E c v).cars[c]).holds.reversal = false := by
        rw [hs.car]; exact eq_false_of_ne_true hr
      rw [endRunOut_of_not_reversal hno]
      exact hs.acts_standing hv (eq_false_of_ne_true hr) hzones
  · rw [endRunOut_of_moving (Nat.not_le.mp hv)]
    exact hs.acts_moving (Nat.not_le.mp hv) hzones

/-- A fleet with other holders trips alike. -/
theorem TripActs.of_holders {hh : Vector (Option CarId) 32} (h : TripActs W { F with holders := hh } c kind v true G)
    (hz : Rezoned W F G c) : TripActs W F c kind v true G := by
  have hb : ({ F with holders := hh } : Fleet).beforeTop c v = { F.beforeTop c v with holders := hh } := by
    by_cases hc : v ≤ 5 ∧ (F.cars[c]).state ≠ .tripped ∧ (F.currentOf c).isSome = true
    · have hpos : F.beforeTop c v = { F with cars := F.cars.set c { F.cars[c] with front := F.frontNow c } } :=
        if_pos hc
      rw [hpos]
      exact if_pos hc
    · have hneg : F.beforeTop c v = F := if_neg hc
      rw [hneg]
      exact if_neg hc
  refine ⟨h.car, h.cars, h.notices, h.stopped, h.marked, h.ended, fun i w hy hv => ?_, h.slots, ?_, h.lists, hz⟩
  · have := h.top i w hy hv
    rw [hb] at this
    exact this
  · have := h.list
    rw [hb] at this
    exact this

/-- Holdings just computed are what a computation gives. -/
theorem Rezoned.again (h : Rezoned W F P c) : Rezoned W P P c := by
  intro z
  rw [h z]
  by_cases hl : W.map.locked = true
  · simp only [if_pos hl]
    cases F.holders[z] with
    | none => by_cases hp : z ∈ reachedZones W P c <;> simp [hp]
    | some d =>
      by_cases hd : d = c
      · subst hd
        by_cases hp : z ∈ reachedZones W P d <;> simp [hp]
      · simp [hd]
  · simp only [if_neg hl]

theorem rezone_eq (W : World) (F : Fleet) (c : CarId) : rezone W F c = { F with holders := (rezone W F c).holders } := by
  unfold rezone
  split <;> rfl

theorem rezone_book (W : World) (hF : F.Book) (c : CarId) : (rezone W F c).Book :=
  (BookAkin.of_eq (rezone_cars W F c) (rezone_slots W F c)).book hF

/-- A report whose track check failed, tripped before its marks are set (R32). -/
theorem trackTrip_acts (g : SameGround W W') (hF : F.Book) (kind : TripKind) (v : Nat) :
    TripActs W F c kind v true
      (endRunOut W' (stopStage W' (rezone W' (trip W F c kind v false) c) c v) c v) := by
  have ht := trip_stage W hF c kind v
  generalize trip W F c kind v false = T at ht
  have hz : Rezoned W' T (rezone W' T c) c := rezone_rezoned W' T c
  have hself : (rezone W' T c).cars[c] = T.cars[c] := by rw [rezone_cars]
  have hnow : (rezone W' T c).frontNow c = T.frontNow c := by
    rw [rezone_eq]
    rfl
  have hE : TripStage W F c kind v (decide (v ≤ 5 ∧ (F.cars[c]).state ≠ .tripped)) (rezone W' T c) := by
    refine ⟨ht.cuts.of_same (fun d _ => by rw [rezone_cars]) (rezone_slots _ _ _) (rezone_occupancy _ _ _)
      (.inr (g.rezoned.mp hz)) (rezone_book W' ht.cuts.book c), ?_, fun n => by rw [rezone_notices]; exact ht.notices n⟩
    rw [hself, hnow]
    exact ht.car
  exact g.symm.tripActs ((g.tripStage hE).acts hF ((g.zoned.mpr ht.cuts.zones).rezoned hz))

/-- A report whose envelope check failed, tripped after its marks are set and its holdings recomputed (R32). -/
theorem envelopeTrip_acts (g : SameGround W W') (hF : F.Book) (kind : TripKind) (v : Nat) :
    TripActs W F c kind v true
      (endRunOut W' (stopStage W' (trip W' (rezone W' F c) c kind v false) c v) c v) := by
  have hz : Rezoned W' F (rezone W' F c) c := rezone_rezoned W' F c
  have hP : (rezone W' F c).Book := rezone_book W' hF c
  obtain ⟨hh, e⟩ : ∃ hh, rezone W' F c = { F with holders := hh } := ⟨_, rezone_eq W' F c⟩
  rw [e] at hz hP ⊢
  have hT := trip_stage W' hP c kind v
  have hacts := hT.acts hP (hz.again.zoned hT.cuts.zones)
  exact g.symm.tripActs (hacts.of_holders (hz.trans hacts.zones))

end ReportTrips

end Sys2Proof.Machine
end

section
namespace Sys2Proof.Machine

/-! ## What one carriage's operations leave alone -/

/-- From `F` to `G` only carriage `c`'s record has changed, in nothing that a report writes or a trip would, with no hold
cause added; only slots in `T`; only its run's list; and its holdings as they follow (R39). -/
structure Within (W : World) (c : CarId) (T : SlotId → Prop) (F G : Fleet) : Prop where
  cars : F.sameCarsBut G c
  cfg : (G.cars[c]).cfg = (F.cars[c]).cfg
  pose : (G.cars[c]).pose = (F.cars[c]).pose
  last : (G.cars[c]).last = (F.cars[c]).last
  mute : (G.cars[c]).mute = (F.cars[c]).mute
  state : (G.cars[c]).state = (F.cars[c]).state
  trip : (G.cars[c]).trip = (F.cars[c]).trip
  holds : ∀ x : Cause, (F.cars[c]).holds.has x = false → (G.cars[c]).holds.has x = false
  slots : ∀ i : SlotId, ¬T i → G.slots[i] = F.slots[i]
  lists : ∀ r : RunId, r ≠ (F.cars[c]).cfg.run → G.occupancy[r] = F.occupancy[r]
  zones : Zoned W F G c
  book : G.Book

/-- Every warrant of carriage `c` stands in a slot in `T`. -/
def Fleet.Covers (F : Fleet) (c : CarId) (T : SlotId → Prop) : Prop :=
  ∀ (i : SlotId) (w : Warrant), (F.slots[i]).warrant = some w → w.carriage = c → T i

section Within

variable {W : World} {F P G : Fleet} {c : CarId} {T : SlotId → Prop} {i : SlotId} {w : Warrant}

theorem Within.refl (W : World) (h : F.Book) : Within W c T F F :=
  ⟨fun _ _ => rfl, rfl, rfl, rfl, rfl, rfl, rfl, fun _ => id, fun _ _ => rfl, fun _ _ => rfl, .refl W F c, h⟩

theorem Within.trans (h : Within W c T F P) (h' : Within W c T P G) : Within W c T F G where
  cars d hd := (h'.cars d hd).trans (h.cars d hd)
  cfg := h'.cfg.trans h.cfg
  pose := h'.pose.trans h.pose
  last := h'.last.trans h.last
  mute := h'.mute.trans h.mute
  state := h'.state.trans h.state
  trip := h'.trip.trans h.trip
  holds x hx := h'.holds x (h.holds x hx)
  slots i hi := (h'.slots i hi).trans (h.slots i hi)
  lists r hr := (h'.lists r (by rw [h.cfg]; exact hr)).trans (h.lists r hr)
  zones := h.zones.trans h'.zones
  book := h'.book

/-- Slots that cover a carriage's warrants still do. -/
theorem Within.covers (h : Within W c T F G) (hT : F.Covers c T) : G.Covers c T := fun i w hw hc => by
  by_contra hi
  rw [h.slots i hi] at hw
  exact hi (hT i w hw hc)

/-- A change of the carriage's record alone. -/
theorem Within.modCar (hF : F.Book) {f : Carriage → Carriage} (hf : (f F.cars[c]).cfg = (F.cars[c]).cfg ∧
    (f F.cars[c]).pose = (F.cars[c]).pose ∧ (f F.cars[c]).last = (F.cars[c]).last ∧
    (f F.cars[c]).mute = (F.cars[c]).mute ∧ (f F.cars[c]).state = (F.cars[c]).state ∧
    (f F.cars[c]).trip = (F.cars[c]).trip ∧ (f F.cars[c]).current = (F.cars[c]).current ∧
    (f F.cars[c]).stack = (F.cars[c]).stack)
    (hh : ∀ x : Cause, (F.cars[c]).holds.has x = false → (f F.cars[c]).holds.has x = false) :
    Within W c T F (F.modCar c f) := by
  obtain ⟨hcfg, hpose, hlast, hmute, hstate, htrip, hcur, hst⟩ := hf
  have hself : (F.modCar c f).cars[c] = f F.cars[c] := Fleet.modCar_get_self F c f
  refine ⟨fun d hd => F.modCar_get_other f hd, ?_, ?_, ?_, ?_, ?_, ?_, fun x hx => ?_, fun _ _ => rfl, fun _ _ => rfl,
    .of_same rfl rfl ?_ ?_, (Akin.modCar F c f ⟨hcfg, hpose, hcur, hst⟩).book.book hF⟩
  all_goals rw [hself]
  · exact hcfg
  · exact hpose
  · exact hlast
  · exact hmute
  · exact hstate
  · exact htrip
  · exact hh x hx
  · exact hcfg
  · exact hpose

theorem Within.refront (hF : F.Book) : Within W c T F (refront F c) :=
  .modCar hF ⟨rfl, rfl, rfl, rfl, rfl, rfl, rfl, rfl⟩ fun _ => id

theorem Within.removeHold (hF : F.Book) (x : Cause) : Within W c T F (F.removeHold c x) :=
  .modCar hF ⟨rfl, rfl, rfl, rfl, rfl, rfl, rfl, rfl⟩ fun y hy => by rw [HoldSet.has_remove, hy, Bool.and_false]

theorem Within.raise (hF : F.Book) (d : Detail) : Within W c T F (F.raise d) :=
  ⟨fun _ _ => rfl, rfl, rfl, rfl, rfl, rfl, rfl, fun _ => id, fun _ _ => rfl, fun _ _ => rfl, .of_same rfl rfl rfl rfl,
    (Akin.raise F d).book.book hF⟩

theorem Within.rezone (hF : F.Book) : Within W c T F (rezone W F c) := by
  refine ⟨fun d _ => by rw [rezone_cars], ?_, ?_, ?_, ?_, ?_, ?_, fun x hx => ?_, fun i _ => by rw [rezone_slots],
    fun r _ => by rw [rezone_occupancy], .inr (rezone_rezoned W F c), rezone_book W hF c⟩
  all_goals rw [rezone_cars]
  exact hx

/-- A change of a warrant that keeps its part on the book. -/
theorem Within.modWarrant (hF : F.Book) (hi : T i) {f : Warrant → Warrant} (hf : ∀ w, (f w).role = w.role) :
    Within W c T F (F.modWarrant i f) := by
  refine ⟨fun _ _ => rfl, rfl, rfl, rfl, rfl, rfl, rfl, fun _ => id, fun j hj => ?_, fun _ _ => rfl,
    .of_same rfl rfl rfl rfl, BookAkin.book (F := F) ⟨fun _ => rfl, fun _ => rfl, .modWarrant F i f hf⟩ hF⟩
  rw [Fleet.modWarrant_get, if_neg]
  rintro rfl
  exact hj hi

theorem Within.receiling (hF : F.Book) (hi : T i) : Within W c T F (receiling W F i) := by
  unfold Machine.receiling
  split
  · exact .modWarrant hF hi fun _ => rfl
  · exact .refl W hF

/-- A warrant's entry written and its carriage's holdings recomputed. -/
theorem Within.resettle (hF : F.Book) (hw : (F.slots[i]).warrant = some w) (hc : w.carriage = c) :
    Within W c T F (resettle W F i) := by
  subst hc
  have hP : (F.putEntry W i w).Book := (BookAkin.of_eq (F.putEntry_cars W i w) (F.putEntry_slots W i w)).book hF
  have hz : Rezoned W F (Machine.rezone W (F.putEntry W i w) w.carriage) w.carriage :=
    (rezone_rezoned W (F.putEntry W i w) w.carriage).of_holders (F.putEntry_holders W i w)
  rw [resettle_of_live hw]
  refine ⟨fun d _ => by rw [rezone_cars, Fleet.putEntry_cars], ?_, ?_, ?_, ?_, ?_, ?_, fun x hx => ?_,
    fun j _ => by rw [rezone_slots, Fleet.putEntry_slots], fun r hr => ?_, .inr hz, rezone_book W hP _⟩
  case refine_8 => rw [rezone_occupancy, Fleet.putEntry_get, if_neg hr]
  all_goals rw [rezone_cars, Fleet.putEntry_cars]
  exact hx

/-- The first steps of a retirement. -/
theorem Within.unlink (hF : F.Book) (hi : T i) (hw : (F.slots[i]).warrant = some w) (hc : w.carriage = c) (r : Reason) :
    Within W c T F (unlink W F i w r) := by
  subst hc
  have hU : Retired W F i w r (Machine.unlink W F i w r) := unlink_retired r
  refine ⟨hU.cars, ?_, ?_, ?_, ?_, ?_, ?_, fun x hx => ?_, fun j hj => hU.slots j ?_, hU.lists, .inr hU.zones,
    hU.book hF hw⟩
  case refine_8 => rintro rfl; exact hj hi
  all_goals rw [hU.car]
  exact hx

end Within

end Sys2Proof.Machine
end

section
namespace Sys2Proof.Machine

/-! ## Resumptions and retirements within one carriage -/

section Within

variable {W : World} {F G : Fleet} {c : CarId} {T : SlotId → Prop} {i : SlotId} {w : Warrant}

/-- A warrant resumed (R127). -/
theorem Within.resumeWarrant (hF : F.Book) (hi : T i) (hw : (F.slots[i]).warrant = some w) (hc : w.carriage = c)
    (hnone : (F.cars[c]).current = none) (res : WalkResult) : Within W c T F (resumeWarrant W F i w res) := by
  subst hc
  obtain ⟨w', hwc, hst, d, e⟩ : ∃ w' : Warrant, w'.carriage = w.carriage ∧ w'.state ≠ .suspended ∧
      ∃ d, Machine.resumeWarrant W F i w res = (Machine.refront (Machine.resettle W
        ((F.putWarrant i (some w')).modCar w.carriage (fun k => { k with
          current := some (F.handleOf i), stack := k.stack.filter (fun x => x != F.handleOf i) })) i)
            w.carriage).raise d := by
    refine ⟨_, ?_, ?_, _, rfl⟩
    · rfl
    · simp
  rw [e]
  let F2 := (F.putWarrant i (some w')).modCar w.carriage
    (fun k => { k with current := some (F.handleOf i), stack := k.stack.filter (fun x => x != F.handleOf i) })
  have hs : ∀ j : SlotId, F2.slots[j] = if j = i then { F.slots[i] with warrant := some w' } else F.slots[j] := fun j => by
    simp only [F2, Fleet.modCar_slots, Fleet.putWarrant_get]
  have hself : F2.cars[w.carriage] = { F.cars[w.carriage] with
      current := some (F.handleOf i)
      stack := (F.cars[w.carriage]).stack.filter (fun x => x != F.handleOf i) } := Fleet.modCar_get_self _ _ _
  have hother : ∀ d : CarId, d ≠ w.carriage → F2.cars[d] = F.cars[d] := fun d hd => Fleet.modCar_get_other _ _ hd
  have hb : F2.Book := by
    refine hF.promote (w' := w') (fun j hj => by rw [hs, if_neg hj]) hw (by rw [hs, if_pos rfl]) hwc hst hnone
      (fun d hd => ?_) (by rw [hself]) (by rw [hself])
    rw [hother d hd]
    exact ⟨rfl, rfl⟩
  have h2 : Within W w.carriage T F F2 := by
    refine ⟨hother, ?_, ?_, ?_, ?_, ?_, ?_, fun x hx => ?_, fun j hj => ?_, fun _ _ => rfl, .of_same rfl rfl ?_ ?_, hb⟩
    case refine_8 =>
      rw [hs, if_neg]
      rintro rfl
      exact hj hi
    all_goals rw [hself]
    exact hx
  have h3 : Within W w.carriage T F2 (Machine.resettle W F2 i) := .resettle hb (by rw [hs, if_pos rfl]) hwc
  have h4 : Within W w.carriage T (Machine.resettle W F2 i) (Machine.refront (Machine.resettle W F2 i) w.carriage) :=
    .refront h3.book
  exact ((h2.trans h3).trans h4).trans (.raise h4.book d)

/-- A retirement without a resumption. -/
theorem Within.retireQuietly (hF : F.Book) (hi : T i) (hm : ∀ w, (F.slots[i]).warrant = some w → w.carriage = c)
    (r : Reason) : Within W c T F (retireQuietly W F i r) := by
  cases hw : (F.slots[i]).warrant with
  | none =>
    have e : Machine.retireQuietly W F i r = F := by simp only [Machine.retireQuietly, hw]
    rw [e]
    exact .refl W hF
  | some w =>
    have hc := hm w hw
    rw [retireQuietly_eq hw]
    have hU : Within W c T F (Machine.unlink W F i w r) := .unlink hF hi hw hc r
    subst hc
    refine hU.trans (.modCar hU.book ⟨rfl, rfl, rfl, rfl, rfl, rfl, rfl, rfl⟩ fun x hx => ?_)
    cases x <;> simp_all [HoldSet.has]

/-- The entries of a stack taken one by one (R125 to R128), for a carriage without a current warrant. -/
theorem Within.attemptFrom (hs : List Handle) (hF : F.Book) (hnone : (F.cars[c]).current = none)
    (hmine : ∀ x ∈ hs, ∀ w, F.live x = some w → w.carriage = c) (hT : ∀ x ∈ hs, T x.slot) :
    Within W c T F (attemptFrom W c hs F) := by
  induction hs generalizing F with
  | nil => exact .refront hF
  | cons x hs ih =>
    have hTs : ∀ y ∈ hs, T y.slot := fun y hy => hT y (List.mem_cons_of_mem _ hy)
    cases hx : F.live x with
    | none =>
      have hself : (F.modCar c (fun k => { k with stack := k.stack.filter (fun y => y != x) })).cars[c] =
          { F.cars[c] with stack := (F.cars[c]).stack.filter (fun y => y != x) } := Fleet.modCar_get_self _ _ _
      have hst : (F.cars[c]).stack.filter (fun y => y != x) = (F.cars[c]).stack := by
        refine List.filter_eq_self.mpr fun y hy => bne_iff_ne.mpr fun e => ?_
        obtain ⟨w, hw, -⟩ := hF.stacked c y hy
        rw [e, hx] at hw
        cases hw
      have hstep : Within W c T F (F.modCar c (fun k => { k with stack := k.stack.filter (fun y => y != x) })) :=
        .modCar hF ⟨rfl, rfl, rfl, rfl, rfl, rfl, rfl, hst⟩ fun _ => id
      simp only [Machine.attemptFrom, hx]
      exact hstep.trans (ih hstep.book (by rw [hself]; exact hnone)
        (fun y hy => hmine y (List.mem_cons_of_mem _ hy)) hTs)
    | some w =>
      have hw := Fleet.slot_of_live hx
      have hc := hmine x List.mem_cons_self w hx
      have hquit : ∀ r : Reason, Within W c T F (Machine.retireQuietly W F x.slot r) := fun r =>
        .retireQuietly hF (hT x List.mem_cons_self) (fun w' hw' => by
          rw [hw, Option.some.injEq] at hw'
          exact hw' ▸ hc) r
      have hrest : ∀ (r : Reason) (P : Fleet), P.slots = (Machine.retireQuietly W F x.slot r).slots →
          P.cars = (Machine.retireQuietly W F x.slot r).cars → P.Book → Within W c T P (Machine.attemptFrom W c hs P) := by
        intro r P hPs hPc hP
        refine ih hP (by rw [hPc]; exact retireQuietly_current_none hnone) (fun y hy v hv => ?_) hTs
        rw [live_congr hPs] at hv
        exact hmine y (List.mem_cons_of_mem _ hy) v (live_of_retireQuietly hv)
      have hfail : ∀ (r : Reason) (b : Option Blocker), Within W c T F
          (Machine.attemptFrom W c hs (raiseResumeFail (Machine.retireQuietly W F x.slot r) c x r b)) := fun r b => by
        have hr : Within W c T (Machine.retireQuietly W F x.slot r)
            (raiseResumeFail (Machine.retireQuietly W F x.slot r) c x r b) := .raise (hquit r).book _
        exact ((hquit r).trans hr).trans (hrest r _ rfl rfl hr.book)
      simp only [Machine.attemptFrom, hx]
      cases hreason : w.retireOnStop with
      | some r => exact (hquit r).trans (hrest r _ rfl rfl (hquit r).book)
      | none =>
        simp only []
        split
        · exact hfail _ _
        · split
          · exact .resumeWarrant hF (hT x List.mem_cons_self) hw hc hnone _
          · exact hfail _ _

/-- A resumption attempt, with the slots of the carriage's stack. -/
theorem Within.attempt_of_stack (hF : F.Book) (hT : ∀ x ∈ (F.cars[c]).stack, T x.slot) :
    Within W c T F (attempt W F c) := by
  unfold Machine.attempt
  split
  · rename_i hm
    simp only [mayAttempt, Bool.and_eq_true, Option.isNone_iff_eq_none] at hm
    obtain ⟨⟨⟨hcur, -⟩, -⟩, -⟩ := hm
    refine .attemptFrom _ hF hcur (fun x hx w hw => ?_) fun x hx => hT x (List.mem_reverse.mp hx)
    obtain ⟨v, hv, hc, -⟩ := hF.stacked c x (List.mem_reverse.mp hx)
    rw [hv, Option.some.injEq] at hw
    exact hw ▸ hc
  · exact .refl W hF

theorem Within.attempt (hF : F.Book) (hT : F.Covers c T) : Within W c T F (attempt W F c) := by
  refine .attempt_of_stack hF fun x hx => ?_
  obtain ⟨w, hw, hc, -⟩ := hF.stacked c x hx
  exact hT x.slot w (Fleet.slot_of_live hw) hc

theorem Within.releaseHold (hF : F.Book) (hT : F.Covers c T) (x : Cause) : Within W c T F (releaseHold W F c x) := by
  have hr : Within W c T F (F.removeHold c x) := .removeHold hF x
  unfold Machine.releaseHold
  simp only []
  split
  · exact hr.trans (.attempt hr.book (hr.covers hT))
  · exact hr

theorem Within.retire (hF : F.Book) (hT : F.Covers c T) (hw : (F.slots[i]).warrant = some w) (hc : w.carriage = c)
    (r : Reason) : Within W c T F (retire W F i r) := by
  have hU : Within W c T F (Machine.unlink W F i w r) := .unlink hF (hT i w hw hc) hw hc r
  subst hc
  have hA : Within W w.carriage T F (if decide ((F.cars[w.carriage]).current = some (F.handleOf i)) && r != .released then
      Machine.attempt W (Machine.unlink W F i w r) w.carriage else Machine.unlink W F i w r) := by
    split
    · exact hU.trans (.attempt hU.book (hU.covers hT))
    · exact hU
  have key : ∀ A : Fleet, Within W w.carriage T F A → Within W w.carriage T F
      (if losesKey A w then Machine.releaseHold W A w.carriage .keyLost else A) := fun A hA => by
    split
    · exact hA.trans (.releaseHold hA.book (hA.covers hT) _)
    · exact hA
  simp only [Machine.retire, hw]
  exact key _ hA

end Within

end Sys2Proof.Machine
end

section
namespace Sys2Proof.Machine

/-! ## A passing report within one carriage (R94, R123) -/

section Within

variable {W : World} {F G : Fleet} {c : CarId} {T : SlotId → Prop} {i : SlotId} {w : Warrant}

/-- The supervising warrant is one of the carriage's. -/
theorem Fleet.Book.supervising_some (h : F.Book) (hs : F.supervising c = some (i, w)) :
    (F.slots[i]).warrant = some w ∧ w.carriage = c := by
  have hcur : F.currentOf c = some (i, w) → (F.slots[i]).warrant = some w ∧ w.carriage = c := fun e => by
    obtain ⟨-, hw, hc, -⟩ := h.currentOf_some e
    exact ⟨hw, hc⟩
  unfold Fleet.supervising at hs
  split at hs
  · split at hs
    · rename_i x ht
      cases hs
      obtain ⟨-, hw, hc, -⟩ := h.topOf_some ht
      exact ⟨hw, hc⟩
    · exact hcur hs
  · exact hcur hs

theorem Within.warn (hF : F.Book) (hT : F.Covers c T) : Within W c T F (warn F c) := by
  unfold Machine.warn
  split
  · rename_i i w hs
    obtain ⟨hw, hc⟩ := hF.supervising_some hs
    split
    · have hm : Within W c T F (F.modWarrant i (fun w' => { w' with warned := true })) :=
        .modWarrant hF (hT i w hw hc) fun _ => rfl
      exact hm.trans (.raise hm.book _)
    · exact .refl W hF
  · exact .refl W hF

theorem Within.stopStage (hF : F.Book) (hT : F.Covers c T) (v : Nat) : Within W c T F (stopStage W F c v) := by
  unfold Machine.stopStage
  split
  · rename_i i w hx
    obtain ⟨-, hw, hc, -⟩ := hF.currentOf_some hx
    split
    · split
      · exact .retire hF hT hw hc _
      · exact .refl W hF
    · exact .refl W hF
  · exact .refl W hF

/-- A warrant as stages 2 and 3 of a report's progress leave it out of a run-out (R95 to R97). -/
def advanced (W : World) (F : Fleet) (c : CarId) (speed : Int) (w : Warrant) : Warrant :=
  let starts : Bool := decide (w.state = .granted) && along w.dir speed &&
    decide ((F.cars[c]).trip.map TripRecord.kind ≠ some .reverse)
  { w with
    state := if starts then .active else w.state
    expiry := if starts then none else w.expiry
    rear := if beyond w.dir (rearFor W F c w.dir) w.rear then rearFor W F c w.dir else w.rear }

/-- What stages 2 and 3 of a report's progress leave of `F`. -/
structure AdvancedAt (W : World) (F : Fleet) (c : CarId) (i : SlotId) (w w' : Warrant) (G : Fleet) : Prop where
  cars : G.cars = F.cars
  slot : G.slots[i] = { F.slots[i] with warrant := some w' }
  slots : F.sameSlotsBut G i
  list : ∀ r : RunId, r = (F.cars[c]).cfg.run → G.occupancy[r] =
    if beyond w.dir (rearFor W F c w.dir) w.rear = true then
      insertEntry (entryOf (runOf W F c) (F.handleOf i) w') ((F.occupancy[r]).filter (fun e => e.handle.slot != i))
    else F.occupancy[r]
  lists : ∀ r : RunId, r ≠ (F.cars[c]).cfg.run → G.occupancy[r] = F.occupancy[r]
  notices : G.notices = F.notices
  zones : Zoned W F G c

theorem advance_spec (hr : (F.cars[c]).holds.reversal = false) (hw : (F.slots[i]).warrant = some w) (hc : w.carriage = c)
    (speed : Int) : AdvancedAt W F c i w (advanced W F c speed w) (advance W F c i speed) := by
  subst hc
  let f : Warrant → Warrant := fun w => if w.state = .granted ∧ along w.dir speed ∧ ¬trippedReverse F w.carriage then
    { w with state := .active, expiry := none } else w
  let w1 := f w
  have hw1 : w1.dir = w.dir ∧ w1.rear = w.rear ∧ w1.carriage = w.carriage ∧
      ∀ x : Int, ({ w1 with rear := x } : Warrant) = { advanced W F w.carriage speed w with rear := x } := by
    have hgo : (w.state = .granted ∧ along w.dir speed ∧ ¬trippedReverse F w.carriage) ↔
        (decide (w.state = .granted) && along w.dir speed &&
          decide ((F.cars[w.carriage]).trip.map TripRecord.kind ≠ some .reverse)) = true := by
      simp [trippedReverse, and_assoc]
    by_cases hs : w.state = .granted ∧ along w.dir speed ∧ ¬trippedReverse F w.carriage
    · have e : w1 = { w with state := .active, expiry := none } := if_pos hs
      rw [e]
      refine ⟨rfl, rfl, rfl, fun x => ?_⟩
      simp only [advanced, hgo.mp hs, if_true]
    · have e : w1 = w := if_neg hs
      rw [e]
      refine ⟨rfl, rfl, rfl, fun x => ?_⟩
      simp only [advanced, eq_false_of_ne_true fun h => hs (hgo.mpr h), Bool.false_eq_true, if_false]
  obtain ⟨hdir, hrear, hcar, hwith⟩ := hw1
  let A := F.modWarrant i f
  have hA : (A.slots[i]).warrant = some w1 := by
    simp only [A, Fleet.modWarrant_get, if_true, hw, Option.map_some, w1]
  have hAs : ∀ j : SlotId, A.slots[j] = if j = i then { F.slots[i] with warrant := some w1 } else F.slots[j] := fun j => by
    simp only [A, Fleet.modWarrant_get, hw, Option.map_some, w1]
  have hrearFor : rearFor W A w1.carriage w1.dir = rearFor W F w.carriage w.dir := by
    rw [hdir, hcar]
    rfl
  have hadv : advance W F w.carriage i speed = releaseRear W A i := by
    simp only [advance, Fleet.inRunOut, hr]
    rfl
  rw [hadv]
  unfold releaseRear
  simp only [hA, hrearFor]
  rw [hdir, hrear]
  by_cases hb : beyond w.dir (rearFor W F w.carriage w.dir) w.rear = true
  · rw [if_pos hb]
    have hw' : ({ w1 with rear := rearFor W F w.carriage w.dir } : Warrant) = advanced W F w.carriage speed w := by
      rw [hwith]
      simp only [advanced, if_pos hb]
    let B := A.modWarrant i (fun w' => { w' with rear := rearFor W F w.carriage w.dir })
    have hBs : ∀ j : SlotId, B.slots[j] =
        if j = i then { F.slots[i] with warrant := some (advanced W F w.carriage speed w) } else F.slots[j] := fun j => by
      rw [Fleet.modWarrant_get, hAs, hAs, if_pos rfl]
      by_cases hj : j = i
      · rw [if_pos hj, if_pos hj, Option.map_some, hw']
      · rw [if_neg hj, if_neg hj, if_neg hj]
    have hB : (B.slots[i]).warrant = some (advanced W F w.carriage speed w) := by rw [hBs, if_pos rfl]
    have hh : B.handleOf i = F.handleOf i := by rw [Fleet.handleOf, Fleet.handleOf, hBs, if_pos rfl]
    rw [resettle_of_live hB]
    refine ⟨by rw [rezone_cars, Fleet.putEntry_cars]; rfl, ?_, fun j hj => ?_, fun r hrun => ?_, fun r hrun => ?_, ?_,
      .inr ((rezone_rezoned W (B.putEntry W i _) w.carriage).of_holders (B.putEntry_holders W i _))⟩
    · rw [rezone_slots, Fleet.putEntry_slots, hBs, if_pos rfl]
    · rw [rezone_slots, Fleet.putEntry_slots, hBs, if_neg hj]
    · subst hrun
      rw [rezone_occupancy, Fleet.putEntry_get, hh]
      exact (if_pos rfl).trans (if_pos hb).symm
    · rw [rezone_occupancy, Fleet.putEntry_get]
      exact if_neg hrun
    · rw [rezone_notices, Fleet.putEntry_notices]
      rfl
  · rw [if_neg hb]
    have hw' : w1 = advanced W F w.carriage speed w := by
      refine (hwith w1.rear).trans ?_
      rw [hrear]
      simp only [advanced, if_neg hb]
    refine ⟨rfl, by rw [hAs, if_pos rfl, hw'], fun j hj => by rw [hAs, if_neg hj], fun r _ => (if_neg hb).symm,
      fun _ _ => rfl, rfl, .of_same rfl rfl rfl rfl⟩

theorem advance_of_reversal (hr : (F.cars[c]).holds.reversal = true) (i : SlotId) (speed : Int) :
    advance W F c i speed = F := by
  rw [advance, Fleet.inRunOut, hr]
  rfl

theorem Within.advance (hF : F.Book) (hT : F.Covers c T) (hx : F.currentOf c = some (i, w)) (speed : Int) :
    Within W c T F (advance W F c i speed) ∧
      ∀ w', ((Machine.advance W F c i speed).slots[i]).warrant = some w' → w'.carriage = c := by
  obtain ⟨-, hw, hc, -⟩ := hF.currentOf_some hx
  by_cases hr : (F.cars[c]).holds.reversal = true
  · rw [advance_of_reversal hr]
    refine ⟨.refl W hF, fun w' hw' => ?_⟩
    rw [hw, Option.some.injEq] at hw'
    exact hw' ▸ hc
  · have ha := advance_spec (W := W) (eq_false_of_ne_true hr) hw hc speed
    have hrole : (advanced W F c speed w).role = w.role := by
      rw [Warrant.role_eq_iff]
      refine ⟨rfl, ?_⟩
      unfold advanced
      simp only []
      split
      · rename_i hs
        simp only [Bool.and_eq_true, decide_eq_true_eq] at hs
        simp [hs.1.1]
      · exact Iff.rfl
    generalize Machine.advance W F c i speed = G at ha
    have hakin : SlotsAkin Warrant.role F G := by
      refine ⟨fun j => ?_, fun j => ?_⟩
      · by_cases hj : j = i
        · rw [hj, ha.slot]
        · rw [ha.slots j hj]
      · by_cases hj : j = i
        · rw [hj, ha.slot, hw, Option.map_some, Option.map_some, hrole]
        · rw [ha.slots j hj]
    refine ⟨⟨fun d _ => by rw [ha.cars], ?_, ?_, ?_, ?_, ?_, ?_, fun x hx => ?_, fun j hj => ha.slots j ?_, ha.lists, ha.zones,
      BookAkin.book (F := F) ⟨fun _ => by rw [ha.cars], fun _ => by rw [ha.cars], hakin⟩ hF⟩, fun w' hw' => ?_⟩
    case refine_8 =>
      rintro rfl
      exact hj (hT j w hw hc)
    case refine_9 =>
      rw [ha.slot, Option.some.injEq] at hw'
      rw [← hw']
      exact hc
    all_goals rw [ha.cars]
    exact hx

theorem Within.completeStage (hF : F.Book) (hT : F.Covers c T) (hm : ∀ w, (F.slots[i]).warrant = some w → w.carriage = c)
    (v : Nat) : Within W c T F (completeStage W F i v) := by
  unfold Machine.completeStage
  split
  · rename_i w hw
    have hc := hm w hw
    subst hc
    split
    · have hk : Within W w.carriage T F (F.modCar w.carriage (fun k => { k with tripCount := 0 })) :=
        .modCar hF ⟨rfl, rfl, rfl, rfl, rfl, rfl, rfl, rfl⟩ fun _ => id
      have hr := hk.trans (.raise hk.book { carriage := some w.carriage, handle := some (F.handleOf i), value := .complete w.limit })
      exact hr.trans (.retire hr.book (hr.covers hT) hw rfl _)
    · exact .refl W hF
  · exact .refl W hF

theorem Within.progress (hF : F.Book) (hT : F.Covers c T) (speed : Int) : Within W c T F (progress W F c speed) := by
  unfold Machine.progress
  split
  · rename_i i w hx
    split
    · exact .stopStage hF hT _
    · obtain ⟨ha, hm⟩ := Within.advance (W := W) hF hT hx speed
      exact ha.trans (.completeStage ha.book (ha.covers hT) hm _)
  · exact .refl W hF

theorem Within.topLeaves (hF : F.Book) (hT : F.Covers c T) : Within W c T F (topLeaves W F c) := by
  unfold Machine.topLeaves
  split
  · rename_i i w ht
    obtain ⟨-, hw, hc, -⟩ := hF.topOf_some ht
    split
    · exact .retire hF hT hw hc _
    · exact .refl W hF
  · exact .refl W hF

theorem Within.currentReceiled (hF : F.Book) (hT : F.Covers c T) : Within W c T F (currentReceiled W F c) := by
  unfold Machine.currentReceiled
  split
  · rename_i i w hx
    obtain ⟨-, hw, hc, -⟩ := hF.currentOf_some hx
    exact .receiling hF (hT i w hw hc)
  · exact .refl W hF

theorem Within.endRunOut (hF : F.Book) (hT : F.Covers c T) (v : Nat) : Within W c T F (endRunOut W F c v) := by
  by_cases hv : v ≤ 5
  · by_cases hr : (F.cars[c]).holds.reversal = true
    · rw [endRunOut_eq W hv hr]
      have h1 : Within W c T F (Machine.topLeaves W F c) := .topLeaves hF hT
      have h2 := h1.trans (.removeHold h1.book .reversal)
      have h3 := h2.trans (.currentReceiled h2.book (h2.covers hT))
      have h4 := h3.trans (.refront h3.book)
      exact h4.trans (.attempt h4.book (h4.covers hT))
    · rw [endRunOut_of_not_reversal (eq_false_of_ne_true hr)]
      exact .refl W hF
  · rw [endRunOut_of_moving (Nat.not_le.mp hv)]
    exact .refl W hF

end Within

end Sys2Proof.Machine
end

section
namespace Sys2Proof.Machine

/-! ## Retirements said of a fleet before the step (R88) -/

section Rebase

variable {W : World} {B Y U G : Fleet} {c : CarId} {i : SlotId} {w : Warrant} {r : Reason} {speed : Int} {v : Nat}

/-- `Y` differs from `B` in nothing that a retirement of slot `i`, of carriage `c`, shows, but holdings recomputed. -/
structure Rebased (W : World) (B : Fleet) (c : CarId) (i : SlotId) (Y : Fleet) : Prop where
  cars : Y.cars = B.cars
  generation : (Y.slots[i]).generation = (B.slots[i]).generation
  slots : B.sameSlotsBut Y i
  list : ∀ r : RunId, (Y.occupancy[r]).filter (fun e => e.handle.slot != i) =
    (B.occupancy[r]).filter (fun e => e.handle.slot != i)
  lists : ∀ r : RunId, r ≠ (B.cars[c]).cfg.run → Y.occupancy[r] = B.occupancy[r]
  notices : Y.notices = B.notices
  zones : Zoned W B Y c

theorem Rebased.handleOf (h : Rebased W B c i Y) : Y.handleOf i = B.handleOf i := by
  rw [Fleet.handleOf, Fleet.handleOf, h.generation]

theorem Retired.rebase (hU : Retired W Y i w r U) (h : Rebased W B w.carriage i Y) : Retired W B i w r U := by
  have hcar := hU.car
  have hlist : ∀ q : RunId, q = (Y.cars[w.carriage]).cfg.run →
      U.occupancy[q] = (Y.occupancy[q]).filter (fun e => e.handle.slot != i) := by
    rintro _ rfl
    exact hU.list
  rw [h.handleOf, h.cars] at hcar
  refine ⟨by rw [hU.slot, h.generation], fun j hj => (hU.slots j hj).trans (h.slots j hj), hcar, fun d hd => ?_, ?_,
    fun q hq => ?_, h.zones.rezoned hU.zones, hU.notices.trans h.notices⟩
  · rw [hU.cars d hd, h.cars]
  · rw [hlist _ (by rw [h.cars]), h.list]
  · rw [hU.lists q (by rw [h.cars]; exact hq), h.lists q hq]

theorem RetiredWhole.rebase (hG : RetiredWhole W Y i w r G) (h : Rebased W B w.carriage i Y) :
    RetiredWhole W B i w r G := by
  obtain ⟨U, hU, e⟩ := hG
  rw [h.handleOf, h.cars] at e
  exact ⟨U, hU.rebase h, e⟩

/-- The same fleet with holdings recomputed. -/
theorem Rebased.of_holders (hc : Y.cars = B.cars) (hs : Y.slots = B.slots) (ho : Y.occupancy = B.occupancy)
    (hn : Y.notices = B.notices) (hz : Zoned W B Y c) : Rebased W B c i Y :=
  ⟨hc, by rw [hs], fun _ _ => by rw [hs], fun _ => by rw [ho], fun _ _ => by rw [ho], hn, hz⟩

end Rebase

/-! ## The WARNING check (R59) -/

section Warn

variable {F G : Fleet} {c : CarId}

/-- The holders take no part in the WARNING check. -/
theorem warn_of_holders (F : Fleet) (hh : Vector (Option CarId) 32) (c : CarId) :
    warn { F with holders := hh } c = { warn F c with holders := hh } := by
  have hs : ({ F with holders := hh } : Fleet).supervising c = F.supervising c := rfl
  unfold warn
  rw [hs]
  cases F.supervising c with
  | none => rfl
  | some y =>
    obtain ⟨i, w⟩ := y
    have hm : warningMet { F with holders := hh } c w = warningMet F c w := rfl
    simp only [hm]
    cases warningMet F c w && !w.warned <;> rfl

theorem warn_cars (F : Fleet) (c : CarId) : (warn F c).cars = F.cars := by
  unfold warn
  split
  · split <;> rfl
  · rfl

theorem warn_occupancy (F : Fleet) (c : CarId) : (warn F c).occupancy = F.occupancy := by
  unfold warn
  split
  · split <;> rfl
  · rfl

theorem warn_holders (F : Fleet) (c : CarId) : (warn F c).holders = F.holders := by
  unfold warn
  split
  · split <;> rfl
  · rfl

/-- The WARNING check changes whether warrants have been warned, and nothing else of them. -/
theorem warn_slots {α : Type} {look : Warrant → α} (hl : ∀ w : Warrant, look { w with warned := true } = look w)
    (F : Fleet) (c : CarId) : SlotsAkin look F (warn F c) := by
  unfold warn
  split
  · split
    · rename_i i w _ _
      have h : SlotsAkin look F (F.modWarrant i fun w' => { w' with warned := true }) := .modWarrant F i _ hl
      exact h.trans (.of_eq rfl)
    · exact .of_eq rfl
  · exact .of_eq rfl

end Warn

end Sys2Proof.Machine
end

section
namespace Sys2Proof.Machine

/-! ## A report that passes its checks (R59, R94, R123) -/

section Passing

variable {W : World} {F X : Fleet} {c : CarId} {i : SlotId} {w : Warrant} {speed : Int}

/-- A report that passed goes on from the fleet after the WARNING check. -/
theorem supervise_passed (h : envelopeCheck W F c speed = none) : supervise W F c speed = progress W (warn F c) c speed := by
  simp only [supervise, h]

/-- Completion waits for standstill. -/
theorem completeStage_of_moving {v : Nat} (hv : 5 < v) : completeStage W F i v = F := by
  have hs : standstill v = false := decide_eq_false (Nat.not_le.mpr hv)
  unfold completeStage
  split
  · simp only [completes, hs, Bool.and_false, Bool.false_and, Bool.false_eq_true, if_false]
  · rfl

/-- A report that passes while nothing can progress: without a current warrant, or moving in a run-out. -/
theorem progress_still (h : F.currentOf c = none ∨ ((F.cars[c]).holds.reversal = true ∧ 5 < speed.natAbs)) :
    progress W F c speed = F := by
  unfold progress
  cases hx : F.currentOf c with
  | none => rfl
  | some y =>
    obtain ⟨i, w⟩ := y
    obtain ⟨hr, hv⟩ := h.resolve_left fun e => by rw [hx] at e; cases e
    have hs : standstill speed.natAbs = false := decide_eq_false (Nat.not_le.mpr hv)
    simp only [hs, Bool.and_false, Bool.false_eq_true, if_false, advance_of_reversal hr, completeStage_of_moving hv]

/-- A marked current warrant at a standstill report (R100). -/
theorem progress_marked {reason : Reason} (hx : F.currentOf c = some (i, w)) (hm : w.retireOnStop = some reason)
    (hv : speed.natAbs ≤ 5) : progress W F c speed = retire W F i reason := by
  have hs : standstill speed.natAbs = true := decide_eq_true hv
  simp only [progress, stopStage, hx, hm, hs, Option.isSome_some, Bool.and_true, if_true]

theorem progress_unmarked (hx : F.currentOf c = some (i, w)) (hm : w.retireOnStop = none ∨ 5 < speed.natAbs) :
    progress W F c speed = completeStage W (advance W F c i speed) i speed.natAbs := by
  have hgo : (w.retireOnStop.isSome && standstill speed.natAbs) = false := by
    rcases hm with hm | hv
    · rw [hm]; rfl
    · rw [standstill, decide_eq_false (Nat.not_le.mpr hv), Bool.and_false]
  simp only [progress, hx, hgo, Bool.false_eq_true, if_false]

/-- A GRANTED warrant never completes, and in a run-out it is not activated. -/
theorem progress_granted_in_runOut (hF : F.Book) (hx : F.currentOf c = some (i, w)) (hm : w.retireOnStop = none)
    (hg : w.state = .granted) (hr : (F.cars[c]).holds.reversal = true) : progress W F c speed = F := by
  obtain ⟨-, hw, -, -⟩ := hF.currentOf_some hx
  rw [progress_unmarked hx (.inl hm), advance_of_reversal hr]
  have hno : completes F w speed.natAbs = false := by
    simp only [completes, hg]
    rfl
  simp only [completeStage, hw, hno, Bool.false_eq_true, if_false]

/-- The distance left from the leading end of an extent to a warrant's limit. -/
def leftTo (p : Pose) (w : Warrant) : Int :=
  match w.dir with
  | .up => w.limit - p.upper
  | .down => p.lower - w.limit

/-- When a warrant completes (R98). -/
theorem completes_iff (hc : w.carriage = c) {p : Pose} (hp : (F.cars[c]).pose = some p) (v : Nat) :
    completes F w v = true ↔ w.state = .active ∧ w.retireOnStop = none ∧ w.confirm = none ∧ v ≤ 5 ∧
      leftTo p w ≤ (F.cars[c]).cfg.stopWindow := by
  subst hc
  have ht : toLimit F.cars[w.carriage] w = leftTo p w := by
    unfold toLimit leftTo
    cases w.dir with
    | up => rw [lead_of_pose hp]; rfl
    | down => rw [lead_of_pose hp]; rfl
  simp only [completes, ht, standstill, Bool.and_eq_true, beq_iff_eq, Option.isNone_iff_eq_none, decide_eq_true_eq,
    and_assoc]

/-- An entry placed in a list is not seen past a filter on its slot. -/
theorem filter_insertEntry {e : Entry} (es : List Entry) (he : e.handle.slot = i) :
    (insertEntry e es).filter (fun e => e.handle.slot != i) = es.filter (fun e => e.handle.slot != i) := by
  have hno : (e.handle.slot != i) = false := by rw [he]; exact bne_self_eq_false i
  induction es with
  | nil => simp only [insertEntry, List.filter_cons, hno, Bool.false_eq_true, if_false]
  | cons x xs ih =>
    unfold insertEntry
    split
    · rw [List.filter_cons, hno]
      rfl
    · rw [List.filter_cons, List.filter_cons, ih]

/-- Progress of a current warrant out of a run-out, that is not marked or whose carriage moves. -/
theorem progress_advanced (hF : F.Book) (hx : F.currentOf c = some (i, w)) (hr : (F.cars[c]).holds.reversal = false)
    (hm : w.retireOnStop = none ∨ 5 < speed.natAbs) :
    let w' := advanced W F c speed w
    let Y := advance W F c i speed
    AdvancedAt W F c i w w' Y ∧
      (completes F w' speed.natAbs = true → RetiredWhole W
        ((F.modCar c (fun k => { k with tripCount := 0 })).raise
          { carriage := some c, handle := some (F.handleOf i), value := .complete w.limit }) i w' .complete
        (progress W F c speed)) ∧
      (completes F w' speed.natAbs = false → progress W F c speed = Y) := by
  intro w' Y
  obtain ⟨-, hw, hc, -⟩ := hF.currentOf_some hx
  have hY : AdvancedAt W F c i w w' Y := advance_spec hr hw hc speed
  have hYw : (Y.slots[i]).warrant = some w' := by rw [hY.slot]
  have hdone : completes Y w' speed.natAbs = completes F w' speed.natAbs := by
    simp only [completes, hY.cars]
  have hh : Y.handleOf i = F.handleOf i := by rw [Fleet.handleOf, Fleet.handleOf, hY.slot]
  have hprog : progress W F c speed = completeStage W Y i speed.natAbs := progress_unmarked hx hm
  have hc' : w'.carriage = c := hc
  have hl : w'.limit = w.limit := rfl
  refine ⟨hY, fun hd => ?_, fun hd => ?_⟩
  · let d : Detail := { carriage := some c, handle := some (F.handleOf i), value := .complete w.limit }
    let B := (F.modCar c (fun k => { k with tripCount := 0 })).raise d
    let Z := (Y.modCar c (fun k => { k with tripCount := 0 })).raise d
    have hZ : progress W F c speed = retire W Z i .complete := by
      rw [hprog]
      simp only [completeStage, hYw, hdone, hd, if_true, hh, hc', hl]
      rfl
    have hZw : (Z.slots[i]).warrant = some w' := hYw
    rw [hZ]
    refine (retire_retiredWhole (W := W) .complete hZw).rebase ?_
    rw [hc']
    have hBc : B.cars[c] = { F.cars[c] with tripCount := 0 } :=
      F.modCar_get_self c (fun k => { k with tripCount := 0 })
    have hcars : Z.cars = B.cars := by
      simp only [Z, B, Fleet.raise_cars, Fleet.modCar, hY.cars]
    have hBF : Zoned W B F c := .of_same rfl rfl (by rw [hBc]) (by rw [hBc])
    have hYZ : Zoned W Y Z c := .of_same rfl rfl (by rw [hcars, hBc, hY.cars]) (by rw [hcars, hBc, hY.cars])
    refine ⟨hcars, ?_, hY.slots, fun r => ?_, fun r hrun => ?_, ?_, (hBF.trans hY.zones).trans hYZ⟩
    · show (Y.slots[i]).generation = (F.slots[i]).generation
      rw [hY.slot]
    · show (Y.occupancy[r]).filter _ = (F.occupancy[r]).filter _
      by_cases hrun : r = (F.cars[c]).cfg.run
      · rw [hY.list r hrun]
        split
        · have hs : (entryOf (runOf W F c) (F.handleOf i) w').handle.slot = i := rfl
          rw [filter_insertEntry _ hs, List.filter_filter]
          simp only [Bool.and_self]
        · rfl
      · rw [hY.lists r hrun]
    · rw [hBc] at hrun
      exact hY.lists r hrun
    · show (Y.raise d).notices = (F.raise d).notices
      simp only [Fleet.raise, hY.notices]
  · rw [hprog]
    simp only [completeStage, hYw, hdone, hd, Bool.false_eq_true, if_false]

end Passing

end Sys2Proof.Machine
end

section
namespace Sys2Proof.Machine

/-! ## The end of a run-out (R123) -/

section RunOut

variable {W : World} {F G : Fleet} {c : CarId} {i j : SlotId} {w u : Warrant} {v : Nat} {speed : Int}

theorem attempt_of_reversal (h : (F.cars[c]).holds.reversal = true) : attempt W F c = F := by
  have hheld : (F.cars[c]).holds.isEmpty = false := by
    rw [HoldSet.isEmpty, h]
    simp
  have hno : mayAttempt F c = false := by simp only [mayAttempt, hheld, Bool.and_false]
  rw [attempt, hno]
  rfl

theorem releaseHold_of_reversal (h : (F.cars[c]).holds.reversal = true) :
    releaseHold W F c .keyLost = F.removeHold c .keyLost := by
  have hs : ((F.removeHold c .keyLost).cars[c]).holds.reversal = true := by
    rw [Fleet.removeHold, Fleet.modCar_get_self]
    exact h
  simp only [releaseHold, attempt_of_reversal hs, ite_self]

/-- A retirement in a run-out attempts no resumption. -/
theorem retire_of_reversal (hw : (F.slots[i]).warrant = some w) (h : (F.cars[w.carriage]).holds.reversal = true)
    (r : Reason) : retire W F i r = retireQuietly W F i r := by
  have hU : ((unlink W F i w r).cars[w.carriage]).holds.reversal = true := by
    rw [(unlink_retired r).car]; exact h
  simp only [retire, retireQuietly, hw, attempt_of_reversal hU, ite_self, releaseHold_of_reversal hU]

/-- What a retirement without a resumption does to the slots and the handles. -/
theorem retireQuietly_spec (W : World) (hw : (F.slots[i]).warrant = some w) (r : Reason) :
    (retireQuietly W F i r).slots[i] = { F.slots[i] with warrant := none } ∧
      F.sameSlotsBut (retireQuietly W F i r) i ∧
      ((retireQuietly W F i r).cars[w.carriage]).current =
        (if (F.cars[w.carriage]).current = some (F.handleOf i) then none else (F.cars[w.carriage]).current) ∧
      ((retireQuietly W F i r).cars[w.carriage]).stack =
        (F.cars[w.carriage]).stack.filter (fun h => h != F.handleOf i) ∧
      ((retireQuietly W F i r).cars[w.carriage]).holds.reversal = (F.cars[w.carriage]).holds.reversal := by
  have hU : Retired W F i w r (unlink W F i w r) := unlink_retired r
  rw [retireQuietly_eq hw, Fleet.modCar_get_self]
  refine ⟨hU.slot, hU.slots, ?_, ?_, ?_⟩
  all_goals rw [hU.car]

/-- Progress in a run-out keeps the run-out, the stack, and every slot but the current warrant's. -/
theorem progress_in_runOut (hF : F.Book) (hr : (F.cars[c]).holds.reversal = true) (speed : Int) :
    ((progress W F c speed).cars[c]).holds.reversal = true ∧
      ((progress W F c speed).cars[c]).stack = (F.cars[c]).stack ∧
      ∀ n : SlotId, (∀ w, F.currentOf c ≠ some (n, w)) → (progress W F c speed).slots[n] = F.slots[n] := by
  have hretire : ∀ (P : Fleet) (i : SlotId) (w : Warrant) (r : Reason), P.slots = F.slots →
      (P.cars[c]).stack = (F.cars[c]).stack → (P.cars[c]).holds.reversal = true → F.currentOf c = some (i, w) →
      ((retire W P i r).cars[c]).holds.reversal = true ∧ ((retire W P i r).cars[c]).stack = (F.cars[c]).stack ∧
        ∀ n : SlotId, (∀ w, F.currentOf c ≠ some (n, w)) → (retire W P i r).slots[n] = F.slots[n] := by
    intro P i w r hPs hPst hPr hx
    obtain ⟨-, hw, rfl, -⟩ := hF.currentOf_some hx
    rw [← hPs] at hw
    have hh : P.handleOf i = F.handleOf i := by rw [Fleet.handleOf, Fleet.handleOf, hPs]
    obtain ⟨-, hother, -, hstack, hrev⟩ := retireQuietly_spec W hw r
    rw [retire_of_reversal hw hPr]
    refine ⟨hrev.trans hPr, ?_, fun n hn => ?_⟩
    · rw [hstack, hPst, hh]
      exact List.filter_eq_self.mpr fun x hm => bne_iff_ne.mpr fun e => hF.current_not_stacked hx (e ▸ hm)
    · rw [hother n fun e => hn w (by rw [e]; exact hx), hPs]
  have hself := And.intro hr (And.intro (rfl : (F.cars[c]).stack = (F.cars[c]).stack)
    fun (n : SlotId) (_ : ∀ w, F.currentOf c ≠ some (n, w)) => (rfl : F.slots[n] = F.slots[n]))
  cases hx : F.currentOf c with
  | none =>
    rw [progress_still (.inl hx)]
    rw [hx] at hself
    exact hself
  | some y =>
    obtain ⟨i, w⟩ := y
    rw [← hx]
    obtain ⟨-, hw, hc, -⟩ := hF.currentOf_some hx
    by_cases hm : w.retireOnStop = none ∨ 5 < speed.natAbs
    · rw [progress_unmarked hx hm, advance_of_reversal hr]
      simp only [completeStage, hw]
      split
      · subst hc
        refine hretire _ i w .complete rfl ?_ ?_ hx
        · rw [Fleet.raise_cars, Fleet.modCar_get_self]
        · rw [Fleet.raise_cars, Fleet.modCar_get_self]; exact hr
      · exact hself
    · obtain ⟨hne, hv⟩ := not_or.mp hm
      obtain ⟨reason, hreason⟩ := Option.ne_none_iff_exists'.mp hne
      rw [progress_marked hx hreason (Nat.not_lt.mp hv)]
      exact hretire F i w reason rfl rfl hr hx

theorem topLeaves_marked {r : Reason} (ht : F.topOf c = some (j, u)) (hm : u.retireOnStop = some r) :
    topLeaves W F c = retire W F j r := by
  simp only [topLeaves, ht, hm]

theorem topLeaves_unmarked (hm : ∀ j u, F.topOf c = some (j, u) → u.retireOnStop = none) : topLeaves W F c = F := by
  unfold topLeaves
  cases ht : F.topOf c with
  | none => rfl
  | some y => simp only [hm y.1 y.2 ht]

/-- The stages of the end of a run-out, one by one. -/
theorem topLeaves_in_runOut (hF : F.Book) (hr : (F.cars[c]).holds.reversal = true) :
    (topLeaves W F c).Book ∧ ((topLeaves W F c).cars[c]).current = (F.cars[c]).current ∧
      (∀ n : SlotId, (∀ u, F.topOf c = some (n, u) → u.retireOnStop = none) →
        (topLeaves W F c).slots[n] = F.slots[n]) ∧
      ∀ j u, F.topOf c = some (j, u) → u.retireOnStop ≠ none →
        (topLeaves W F c).slots[j] = { F.slots[j] with warrant := none } := by
  refine ⟨(Within.topLeaves (T := fun _ => True) (W := W) hF fun _ _ _ _ => trivial).book, ?_⟩
  by_cases hm : ∀ j u, F.topOf c = some (j, u) → u.retireOnStop = none
  · rw [topLeaves_unmarked hm]
    exact ⟨rfl, fun _ _ => rfl, fun j u ht hne => absurd (hm j u ht) hne⟩
  · simp only [not_forall] at hm
    obtain ⟨j, u, ht, hne⟩ := hm
    obtain ⟨r, hr'⟩ := Option.ne_none_iff_exists'.mp hne
    obtain ⟨-, hu, rfl, hsus⟩ := hF.topOf_some ht
    rw [topLeaves_marked ht hr', retire_of_reversal hu hr]
    obtain ⟨hslot, hother, hcur, -, -⟩ := retireQuietly_spec W hu r
    refine ⟨?_, fun n hn => hother n fun e => hne (hn u (by rw [e]; exact ht)), fun j' u' e _ => ?_⟩
    · rw [hcur, if_neg]
      intro hc
      obtain ⟨x, hx, -, hnot⟩ := hF.current _ _ hc
      rw [Fleet.live_handleOf, hu, Option.some.injEq] at hx
      exact hnot (hx ▸ hsus)
    · rw [ht] at e
      obtain ⟨rfl, -⟩ := Prod.mk.inj (Option.some.inj e)
      exact hslot

/-- The ceiling of a current warrant computed in full after REVERSAL has gone. -/
theorem currentReceiled_removeHold (hF : F.Book) (x : Cause) : currentReceiled W (F.removeHold c x) c =
    { F with
      cars := F.cars.set c { F.cars[c] with holds := (F.cars[c]).holds.remove x }
      slots := match F.currentOf c with
        | some (i, w) => F.slots.set i { F.slots[i] with warrant := some { w with ceiling := fullCeiling W F w } }
        | none => F.slots } := by
  have hself : (F.removeHold c x).cars[c] = { F.cars[c] with holds := (F.cars[c]).holds.remove x } :=
    Fleet.modCar_get_self _ _ _
  have hcur : (F.removeHold c x).currentOf c = F.currentOf c := currentOf_congr (by rw [hself]) rfl
  unfold currentReceiled
  rw [hcur]
  cases hx : F.currentOf c with
  | none => rfl
  | some y =>
    obtain ⟨i, w⟩ := y
    obtain ⟨-, hw, rfl, -⟩ := hF.currentOf_some hx
    have hw' : ((F.removeHold w.carriage x).slots[i]).warrant = some w := hw
    have hceil : fullCeiling W (F.removeHold w.carriage x) w = fullCeiling W F w :=
      fullCeiling_of_car (by rw [hself]) (by rw [hself])
    simp only [receiling, hw', hceil, Fleet.modWarrant_of_live hw']
    rfl

/-- The end of a run-out does what R123 says. -/
theorem endRunOut_runOutEnds (W : World) (hF : F.Book) (hv : v ≤ 5) (hr : (F.cars[c]).holds.reversal = true) :
    RunOutEnds W F c (endRunOut W F c v) := by
  refine ⟨topLeaves W F c, fun j top reason ht hm => ?_, fun hm => ?_, ?_⟩
  · obtain ⟨-, hu, -, -⟩ := hF.topOf_some ht
    rw [topLeaves_marked ht hm]
    exact retire_retiredWhole reason hu
  · exact topLeaves_unmarked hm
  · rw [endRunOut_eq W hv hr, currentReceiled_removeHold (topLeaves_in_runOut hF hr).1]
    rfl

end RunOut

end Sys2Proof.Machine
end

section
namespace Sys2Proof.Machine

section RunOutEnd

variable {W : World} {F G : Fleet} {c : CarId} {i j : SlotId} {w u : Warrant} {v : Nat}

/-- The fleet from which the end of a run-out attempts a resumption (R123). -/
def runOutOver (W : World) (F : Fleet) (c : CarId) : Fleet :=
  refront (currentReceiled W ((topLeaves W F c).removeHold c .reversal) c) c

theorem endRunOut_attempt (W : World) (hv : v ≤ 5) (hr : (F.cars[c]).holds.reversal = true) :
    endRunOut W F c v = attempt W (runOutOver W F c) c := endRunOut_eq W hv hr

theorem runOutOver_car (hF : F.Book) (hr : (F.cars[c]).holds.reversal = true) :
    (runOutOver W F c).cars[c] = { (topLeaves W F c).cars[c] with
      holds := ((topLeaves W F c).cars[c]).holds.remove .reversal, front := (runOutOver W F c).frontNow c } := by
  have hb := (topLeaves_in_runOut (W := W) hF hr).1
  unfold runOutOver
  rw [frontNow_refront, refront_get, if_pos rfl, currentReceiled_removeHold hb]
  simp

theorem runOutOver_book (hF : F.Book) : (runOutOver W F c).Book := by
  have h1 : Within W c (fun _ => True) F (topLeaves W F c) := .topLeaves hF fun _ _ _ _ => trivial
  have h2 := h1.trans (.removeHold h1.book .reversal)
  have h3 := h2.trans (.currentReceiled h2.book fun _ _ _ _ => trivial)
  exact (h3.trans (.refront h3.book)).book

theorem runOutOver_slot (hF : F.Book) (hr : (F.cars[c]).holds.reversal = true) (n : SlotId)
    (hn : ∀ w, (topLeaves W F c).currentOf c ≠ some (n, w)) :
    (runOutOver W F c).slots[n] = (topLeaves W F c).slots[n] := by
  have hb := (topLeaves_in_runOut (W := W) hF hr).1
  unfold runOutOver
  rw [refront_slots, currentReceiled_removeHold hb]
  cases hx : (topLeaves W F c).currentOf c with
  | none => rfl
  | some y =>
    obtain ⟨i, w⟩ := y
    have hi : n ≠ i := fun e => hn w (by rw [hx, e])
    have hset := (topLeaves W F c).putWarrant_get i n (some { w with ceiling := fullCeiling W (topLeaves W F c) w })
    rw [if_neg hi] at hset
    exact hset

/-- REVERSAL is gone after a standstill report. -/
theorem endRunOut_reversal (W : World) (hF : F.Book) (hv : v ≤ 5) :
    ((endRunOut W F c v).cars[c]).holds.reversal = false := by
  by_cases hr : (F.cars[c]).holds.reversal = true
  · have hA : Within W c (fun _ => True) (runOutOver W F c) (attempt W (runOutOver W F c) c) :=
      .attempt (runOutOver_book hF) fun _ _ _ _ => trivial
    rw [endRunOut_attempt W hv hr]
    refine hA.holds .reversal ?_
    rw [runOutOver_car hF hr]
    rfl
  · rw [endRunOut_of_not_reversal (eq_false_of_ne_true hr)]
    exact eq_false_of_ne_true hr

/-- A marked top warrant is gone after the end of a run-out. -/
theorem endRunOut_top_gone (W : World) (hF : F.Book) (hv : v ≤ 5) (hr : (F.cars[c]).holds.reversal = true)
    (ht : F.topOf c = some (j, u)) (hm : u.retireOnStop ≠ none) :
    (endRunOut W F c v).slots[j] = { F.slots[j] with warrant := none } := by
  obtain ⟨hb, -, -, hgone⟩ := topLeaves_in_runOut (W := W) hF hr
  have hj := hgone j u ht hm
  have hover : (runOutOver W F c).slots[j] = { F.slots[j] with warrant := none } := by
    rw [runOutOver_slot hF hr j fun w hx => ?_, hj]
    have := (hb.currentOf_some hx).2.1
    rw [hj] at this
    cases this
  have hbook := runOutOver_book (W := W) (c := c) hF
  have hA : Within W c (fun n => n ≠ j) (runOutOver W F c) (attempt W (runOutOver W F c) c) := by
    refine .attempt_of_stack hbook fun x hx e => ?_
    obtain ⟨w, hw, -⟩ := hbook.stacked c x hx
    have := Fleet.slot_of_live hw
    subst e
    rw [hover] at this
    cases this
  rw [endRunOut_attempt W hv hr, hA.slots j (fun h => h rfl), hover]

/-- A current warrant at the end of a run-out: it stays, with its ceiling in full and the front of its direction. -/
theorem endRunOut_current (W : World) (hF : F.Book) (hv : v ≤ 5) (hr : (F.cars[c]).holds.reversal = true)
    (hx : F.currentOf c = some (i, w)) {l : LastReport} {p : Pose} (hl : (F.cars[c]).last = some l)
    (hp : (F.cars[c]).pose = some p) :
    ((endRunOut W F c v).slots[i]).warrant = some { w with ceiling := fullCeiling W F w } ∧
      ((endRunOut W F c v).cars[c]).current = (F.cars[c]).current ∧
      ((endRunOut W F c v).cars[c]).front = frontAt (F.cars[c]).cfg p l.speed.natAbs (some w.dir) ∧
      ∀ j u, F.topOf c = some (j, u) → u.retireOnStop = none → (endRunOut W F c v).slots[j] = F.slots[j] := by
  obtain ⟨hb, hcur, hkept, -⟩ := topLeaves_in_runOut (W := W) hF hr
  obtain ⟨hhandle, hw, hc, -⟩ := hF.currentOf_some hx
  have hne : ∀ j u, F.topOf c = some (j, u) → i ≠ j := fun j u ht =>
    hF.current_ne_top hx ((runOutTop_of_reversal hr).trans ht)
  have hL : Within W c (fun _ => True) F (topLeaves W F c) := .topLeaves hF fun _ _ _ _ => trivial
  have hi : (topLeaves W F c).slots[i] = F.slots[i] := hkept i fun u ht => absurd rfl (hne i u ht)
  have hLx : (topLeaves W F c).currentOf c = some (i, w) := by
    refine currentOf_of_handle ?_ (by rw [hi]; exact hw)
    rw [hcur, hhandle, Fleet.handleOf, Fleet.handleOf, hi]
  have hceil : fullCeiling W (topLeaves W F c) w = fullCeiling W F w := by
    subst hc
    exact fullCeiling_of_car hL.cfg hL.pose
  have hcar := runOutOver_car (W := W) hF hr
  have hover : ((runOutOver W F c).slots[i]).warrant = some { w with ceiling := fullCeiling W F w } := by
    unfold runOutOver
    rw [refront_slots, currentReceiled_removeHold hb, hLx, ← hceil]
    simp
  have hnow : (runOutOver W F c).frontNow c = frontAt (F.cars[c]).cfg p l.speed.natAbs (some w.dir) := by
    have hsup : (runOutOver W F c).supervising c = some (i, { w with ceiling := fullCeiling W F w }) := by
      rw [supervising_of_not_reversal (by rw [hcar]; rfl)]
      refine currentOf_of_handle ?_ hover
      have hgen : (runOutOver W F c).handleOf i = F.handleOf i := by
        unfold runOutOver
        rw [Fleet.handleOf, Fleet.handleOf, refront_slots, currentReceiled_removeHold hb, hLx]
        simp [hi]
      rw [hgen, hcar]
      exact hcur.trans hhandle
    have hlast : ((runOutOver W F c).cars[c]).last = some l := by rw [hcar]; exact hL.last.trans hl
    have hpose : ((runOutOver W F c).cars[c]).pose = some p := by rw [hcar]; exact hL.pose.trans hp
    have hcfg : ((runOutOver W F c).cars[c]).cfg = (F.cars[c]).cfg := by rw [hcar]; exact hL.cfg
    simp only [Fleet.frontNow, hlast, hpose, hcfg, Fleet.supervisionDir, hsup]
  have hstay : attempt W (runOutOver W F c) c = runOutOver W F c := by
    have hno : mayAttempt (runOutOver W F c) c = false := by
      have : ((runOutOver W F c).cars[c]).current.isNone = false := by
        rw [hcar]
        show ((topLeaves W F c).cars[c]).current.isNone = false
        rw [hcur, hhandle]
        rfl
      simp only [mayAttempt, this, Bool.false_and]
    rw [attempt, hno]
    rfl
  rw [endRunOut_attempt W hv hr, hstay]
  refine ⟨hover, ?_, ?_, fun j u ht hm => ?_⟩
  · rw [hcar]; exact hcur
  · rw [hcar]; exact hnow
  · rw [runOutOver_slot hF hr j fun w' hx' => ?_]
    · refine hkept j fun u' ht' => ?_
      rw [ht] at ht'
      obtain ⟨-, rfl⟩ := Prod.mk.inj (Option.some.inj ht')
      exact hm
    · rw [hLx] at hx'
      exact hne j u ht (Prod.mk.inj (Option.some.inj hx')).1

end RunOutEnd

end Sys2Proof.Machine
end

section
namespace Sys2Proof.Machine

/-! ## The stages of a report together (R32) -/

section ReportStages

variable {W W' : World} {F G H : Fleet} {c : CarId} {i j : SlotId} {w u : Warrant} {speed : Int} {kind : TripKind}

/-- The first check of a report that fails, from the fleet with the report recorded. -/
def checkOf (W : World) (F : Fleet) (c : CarId) (speed : Int) : Option TripKind :=
  match trackCheck W F c with
  | some kind => some kind
  | none => envelopeCheck W F c speed

/-- Stages 5 to 9 of a report, from the fleet `F` with the report recorded and the world `W'` with its marks set. -/
def reportStages (W W' : World) (F : Fleet) (c : CarId) (speed : Int) : Fleet :=
  match trackCheck W F c with
  | some kind =>
    endRunOut W' (stopStage W' (rezone W' (trip W F c kind speed.natAbs false) c) c speed.natAbs) c speed.natAbs
  | none => endRunOut W' (supervise W' (rezone W' F c) c speed) c speed.natAbs

/-- The marks depend on the carriage's run and pose. -/
theorem setMarks_congr (hg : (G.cars[c]).cfg = (F.cars[c]).cfg) (hp : (G.cars[c]).pose = (F.cars[c]).pose) (v : Nat) :
    setMarks W G c v = setMarks W F c v := by
  simp only [setMarks, occupied, presentExtent, runOf, hg, hp] <;> rfl

theorem takeReport_stages (W : World) (F : Fleet) (c : CarId) (positions : List Nat) {F1 : Fleet} (hF : F1.Book)
    (h1 : recordReport W F c positions speed = F1) :
    takeReport W F c positions speed =
      (setMarks W F1 c speed.natAbs, endMute (setMarks W F1 c speed.natAbs)
        (reportStages W (setMarks W F1 c speed.natAbs) F1 c speed) c) := by
  cases ht : trackCheck W F1 c with
  | none =>
    rw [takeReport_passed (by rw [h1]; exact ht), h1]
    simp only [reportStages, ht]
  | some kind =>
    have hstage := (trip_stage W hF c kind speed.natAbs).car
    have hmarks : setMarks W (trip W F1 c kind speed.natAbs false) c speed.natAbs = setMarks W F1 c speed.natAbs :=
      setMarks_congr (by rw [hstage]; rfl) (by rw [hstage]; rfl) _
    rw [takeReport_tripped (by rw [h1]; exact ht), h1]
    simp only [reportStages, ht, hmarks]

/-- The envelope checks read neither marks nor holders. -/
theorem envelopeCheck_rezone (g : SameGround W W') (F : Fleet) (c : CarId) (speed : Int) :
    envelopeCheck W' (rezone W' F c) c speed = envelopeCheck W F c speed := by
  rw [g.envelopeCheck, rezone_eq]
  rfl

/-- A failed check trips. -/
theorem reportStages_tripped (g : SameGround W W') (hF : F.Book) (h : checkOf W F c speed = some kind) :
    TripActs W F c kind speed.natAbs true (reportStages W W' F c speed) := by
  unfold checkOf at h
  unfold reportStages
  cases ht : trackCheck W F c with
  | some k =>
    rw [ht] at h
    cases h
    exact trackTrip_acts g hF kind _
  | none =>
    rw [ht] at h
    have he : envelopeCheck W' (rezone W' F c) c speed = some kind := (envelopeCheck_rezone g F c speed).trans h
    simp only [supervise, he]
    exact envelopeTrip_acts g hF kind _

/-- The fleet after the WARNING check, its holdings recomputed. -/
def passedFleet (W' : World) (F : Fleet) (c : CarId) : Fleet := { warn F c with holders := (rezone W' F c).holders }

/-- A report that passes goes on to its progress and to the end of a run-out. -/
theorem reportStages_passed (g : SameGround W W') (h : checkOf W F c speed = none) : reportStages W W' F c speed =
    endRunOut W' (progress W' (passedFleet W' F c) c speed) c speed.natAbs := by
  unfold checkOf at h
  unfold reportStages
  cases ht : trackCheck W F c with
  | some k => rw [ht] at h; cases h
  | none =>
    rw [ht] at h
    have he : envelopeCheck W' (rezone W' F c) c speed = none := (envelopeCheck_rezone g F c speed).trans h
    simp only [supervise_passed he]
    rw [rezone_eq, warn_of_holders]
    rfl

theorem passedFleet_keeps (W' : World) (F : Fleet) (c : CarId) : (passedFleet W' F c).cars = F.cars ∧
    (passedFleet W' F c).slots = (warn F c).slots ∧ (passedFleet W' F c).occupancy = F.occupancy ∧
    (passedFleet W' F c).notices = (warn F c).notices ∧
    (∀ d, (passedFleet W' F c).currentOf d = (warn F c).currentOf d) ∧
    ∀ d, (passedFleet W' F c).topOf d = (warn F c).topOf d :=
  ⟨warn_cars F c, rfl, warn_occupancy F c, rfl, fun _ => rfl, fun _ => rfl⟩

theorem passedFleet_within (W' : World) {T : SlotId → Prop} (hF : F.Book) (hT : F.Covers c T) :
    Within W' c T F (passedFleet W' F c) := by
  have h1 : Within W' c T F (rezone W' F c) := .rezone hF
  have h2 := h1.trans (.warn h1.book (h1.covers hT))
  have e : warn (rezone W' F c) c = passedFleet W' F c := by
    rw [rezone_eq, warn_of_holders]
    rfl
  rw [e] at h2
  exact h2

/-- Holdings recomputed in a report that passes. -/
theorem passedFleet_rezoned (W' : World) (F : Fleet) (c : CarId) : Rezoned W' F (passedFleet W' F c) c := by
  obtain ⟨hc, -, ho, -⟩ := passedFleet_keeps W' F c
  refine .of_rezone rfl rfl (reachedZones_congr (by rw [hc]) (by rw [hc]) ho)

theorem passedFleet_zoned (W' : World) (F : Fleet) (c : CarId) : Rezoned W' (warn F c) (passedFleet W' F c) c :=
  (passedFleet_rezoned W' F c).of_holders (warn_holders F c).symm

end ReportStages

end Sys2Proof.Machine
end

section
namespace Sys2Proof.Machine

/-! ## What a report leaves alone -/

section ReportFrame

variable {W W' : World} {F G H : Fleet} {c : CarId} {speed : Int} {kind : TripKind} {v : Nat}

theorem Fleet.covers_owns (F : Fleet) (c : CarId) : F.Covers c (F.owns c) := fun _ w hw hc => ⟨w, hw, hc⟩

/-- From `F`, with carriage `c`'s report recorded, to `G` nothing of another carriage has changed, nor what the report
recorded. -/
structure ReportFrame (W : World) (F : Fleet) (c : CarId) (G : Fleet) : Prop where
  cars : F.sameCarsBut G c
  cfg : (G.cars[c]).cfg = (F.cars[c]).cfg
  pose : (G.cars[c]).pose = (F.cars[c]).pose
  last : (G.cars[c]).last = (F.cars[c]).last
  slots : ∀ i : SlotId, ¬F.owns c i → G.slots[i] = F.slots[i]
  lists : ∀ r : RunId, r ≠ (F.cars[c]).cfg.run → G.occupancy[r] = F.occupancy[r]
  zones : Rezoned W F G c
  book : G.Book

/-- What the stages after the marks keep of a report that trips: the book (R66). -/
theorem tripStages_book (hE : G.Book) : (endRunOut W' (stopStage W' G c v) c v).Book := by
  have h1 : Within W' c (fun _ => True) G (stopStage W' G c v) := .stopStage hE (fun _ _ _ _ => trivial) v
  exact (h1.trans (.endRunOut h1.book (fun _ _ _ _ => trivial) v)).book

theorem reportStages_book (g : SameGround W W') (hF : F.Book) (c : CarId) (speed : Int) :
    (reportStages W W' F c speed).Book := by
  cases hk : checkOf W F c speed with
  | none =>
    rw [reportStages_passed g hk]
    have h1 := passedFleet_within (T := fun _ => True) (c := c) W' hF fun _ _ _ _ => trivial
    have h2 := h1.trans (.progress h1.book (fun _ _ _ _ => trivial) speed)
    exact (h2.trans (.endRunOut h2.book (fun _ _ _ _ => trivial) _)).book
  | some kind =>
    unfold reportStages
    cases ht : trackCheck W F c with
    | some k =>
      exact tripStages_book (rezone_book W' (trip_stage W hF c k _).cuts.book c)
    | none =>
      have hb := rezone_book W' hF c
      have he : envelopeCheck W' (rezone W' F c) c speed = some kind := by
        rw [envelopeCheck_rezone g]
        simpa only [checkOf, ht] using hk
      simp only [supervise, he]
      exact tripStages_book (trip_stage W' hb c kind _).cuts.book

/-- The fleet that a report leaves before the end of mute. -/
theorem reportStages_frame (g : SameGround W W') (hF : F.Book) (c : CarId) (speed : Int) :
    ReportFrame W F c (reportStages W W' F c speed) ∧
      ((reportStages W W' F c speed).cars[c]).mute = (F.cars[c]).mute := by
  have hbook := reportStages_book g hF c speed
  cases hk : checkOf W F c speed with
  | none =>
    rw [reportStages_passed g hk] at hbook ⊢
    have hT := F.covers_owns c
    have h1 := passedFleet_within (c := c) W' hF hT
    have h2 : Within W' c (F.owns c) (passedFleet W' F c) (progress W' (passedFleet W' F c) c speed) :=
      .progress h1.book (h1.covers hT) speed
    have h3 := h2.trans (.endRunOut h2.book ((h1.trans h2).covers hT) speed.natAbs)
    have h := h1.trans h3
    exact ⟨⟨h.cars, h.cfg, h.pose, h.last, h.slots, h.lists, g.rezoned.mp ((passedFleet_rezoned W' F c).zoned h3.zones),
      hbook⟩, h.mute⟩
  | some kind =>
    have ht := reportStages_tripped g hF hk
    generalize reportStages W W' F c speed = H at hbook ht
    have hcar := ht.car
    refine ⟨⟨ht.cars, by rw [hcar], by rw [hcar], by rw [hcar], fun i hi => ht.slots i (fun w hx => hi ?_) fun u hy => hi ?_,
      ht.lists, ht.zones, hbook⟩, by rw [hcar]⟩
    · obtain ⟨hw, hc⟩ := hF.bears_current c i w hx
      exact ⟨w, hw, hc⟩
    · obtain ⟨hu, hc⟩ := hF.bears_top c i u hy
      exact ⟨u, hu, hc⟩

/-- The end of mute (R42). -/
theorem endMute_eq (W : World) (H : Fleet) (c : CarId) : endMute W H c =
    if (H.cars[c]).mute = true then
      causeLifted W { H with cars := H.cars.set c { H.cars[c] with mute := false } } c .mute
    else H := by
  unfold endMute
  split
  · exact releaseHold_eq_causeLifted W _ c .mute
  · rfl

/-- The end of mute leaves the rest as it is, and takes MUTE out of the hold set. -/
theorem endMute_frame (g : SameGround W W') (h : ReportFrame W F c H) :
    ReportFrame W F c (endMute W' H c) ∧ ((endMute W' H c).cars[c]).mute = false ∧
      ((endMute W' H c).cars[c]).state = (H.cars[c]).state ∧ ((endMute W' H c).cars[c]).trip = (H.cars[c]).trip ∧
      ((H.cars[c]).mute = true → ((endMute W' H c).cars[c]).holds.mute = false) := by
  by_cases hm : (H.cars[c]).mute = true
  · let M := H.modCar c (fun k => { k with mute := false })
    have hself : M.cars[c] = { H.cars[c] with mute := false } := H.modCar_get_self c _
    have hM : M.Book := (Akin.modCar H c _ ⟨rfl, rfl, rfl, rfl⟩).book.book h.book
    have hMT : M.Covers c (F.owns c) := fun i w hw hc => by
      by_contra hi
      have hs : (H.slots[i]).warrant = some w := hw
      rw [h.slots i hi] at hs
      exact hi ⟨w, hs, hc⟩
    have hend : endMute W' H c = releaseHold W' M c .mute := by rw [endMute, if_pos hm]
    have hr : Within W' c (F.owns c) M (releaseHold W' M c .mute) := .releaseHold hM hMT .mute
    have hmute : ((releaseHold W' M c .mute).cars[c]).holds.mute = false := by
      have hrem : Within W' c (F.owns c) M (M.removeHold c .mute) := .removeHold hM .mute
      have hoff : ((M.removeHold c .mute).cars[c]).holds.has .mute = false := by
        rw [Fleet.removeHold, Fleet.modCar_get_self]
        rfl
      unfold releaseHold
      simp only []
      split
      · exact (Within.attempt hrem.book (hrem.covers hMT)).holds .mute hoff
      · exact hoff
    rw [hend]
    refine ⟨⟨fun d hd => ?_, ?_, ?_, ?_, fun i hi => (hr.slots i hi).trans (h.slots i hi), fun r hrun => ?_, ?_, hr.book⟩,
      ?_, ?_, ?_, fun _ => hmute⟩
    · rw [hr.cars d hd, H.modCar_get_other _ hd, h.cars d hd]
    · rw [hr.cfg, hself]; exact h.cfg
    · rw [hr.pose, hself]; exact h.pose
    · rw [hr.last, hself]; exact h.last
    · rw [hr.lists r (by rw [hself]; exact fun e => hrun (e.trans (congrArg CarConfig.run h.cfg)))]
      exact h.lists r hrun
    · have hz : Zoned W H M c := .of_same rfl rfl (by rw [hself]) (by rw [hself])
      exact h.zones.zoned (hz.trans (g.zoned.mp hr.zones))
    · rw [hr.mute, hself]
    · rw [hr.state, hself]
    · rw [hr.trip, hself]
  · have hend : endMute W' H c = H := endMute_of_not_mute (eq_false_of_ne_true hm)
    rw [hend]
    exact ⟨h, eq_false_of_ne_true hm, rfl, rfl, fun e => absurd e hm⟩

end ReportFrame

end Sys2Proof.Machine
end

section
namespace Sys2Proof.Machine

/-! ## What a report that passes does to its warrants (R59, R94 to R100, R123) -/

section PassedReport

variable {W W' : World} {F G H : Fleet} {c : CarId} {i j : SlotId} {w u : Warrant} {speed : Int}

theorem warn_generation (F : Fleet) (c : CarId) (i : SlotId) :
    ((warn F c).slots[i]).generation = (F.slots[i]).generation :=
  (warn_slots (look := Warrant.role) (fun _ => rfl) F c).generation i

/-- A report that passes while nothing can progress nor a run-out end. -/
theorem passed_still (g : SameGround W W') (hk : checkOf W F c speed = none)
    (hcur : F.currentOf c = none ∨ ((F.cars[c]).holds.reversal = true ∧ 5 < speed.natAbs))
    (hend : (F.cars[c]).holds.reversal = false ∨ 5 < speed.natAbs) :
    (reportStages W W' F c speed).slots = (warn F c).slots ∧ (reportStages W W' F c speed).cars = (warn F c).cars ∧
      (reportStages W W' F c speed).occupancy = F.occupancy ∧
      (reportStages W W' F c speed).notices = (warn F c).notices := by
  obtain ⟨hc, hs, ho, hn, hx, -⟩ := passedFleet_keeps W' F c
  have hnone : F.currentOf c = none → (passedFleet W' F c).currentOf c = none := fun e => by
    rw [hx, Fleet.currentOf, warn_cars]
    unfold Fleet.currentOf at e
    cases hh : (F.cars[c]).current with
    | none => rfl
    | some x =>
      rw [hh, Option.map_eq_none_iff] at e
      have hl := (warn_slots (look := Warrant.role) (fun _ => rfl) F c).live_map x
      rw [e, Option.map_none, Option.map_eq_none_iff] at hl
      simp only [hl, Option.map_none]
  rw [reportStages_passed g hk, progress_still (hcur.imp hnone fun e => by rw [hc]; exact e)]
  have hstop : endRunOut W' (passedFleet W' F c) c speed.natAbs = passedFleet W' F c := by
    rcases hend with hr | hv
    · exact endRunOut_of_not_reversal (by rw [hc]; exact hr) _
    · exact endRunOut_of_moving hv
  rw [hstop]
  exact ⟨hs, hc.trans (warn_cars F c).symm, ho, hn⟩

/-- Out of a run-out the report ends with its progress. -/
theorem passed_out_of_runOut (g : SameGround W W') (hF : F.Book) (hk : checkOf W F c speed = none)
    (hr : (F.cars[c]).holds.reversal = false) :
    reportStages W W' F c speed = progress W' (passedFleet W' F c) c speed := by
  have h1 := passedFleet_within (T := fun _ => True) (c := c) W' hF fun _ _ _ _ => trivial
  have h2 : Within W' c (fun _ => True) (passedFleet W' F c) (progress W' (passedFleet W' F c) c speed) :=
    .progress h1.book (fun _ _ _ _ => trivial) speed
  rw [reportStages_passed g hk]
  exact endRunOut_of_not_reversal ((h1.trans h2).holds .reversal hr) _

theorem passed_book (hF : F.Book) : (passedFleet W' F c).Book :=
  (passedFleet_within (T := fun _ => True) (c := c) W' hF fun _ _ _ _ => trivial).book

/-- A marked current warrant retires at a standstill report. -/
theorem passed_marked (g : SameGround W W') (hF : F.Book) (hk : checkOf W F c speed = none)
    (hr : (F.cars[c]).holds.reversal = false) (hx : (warn F c).currentOf c = some (i, w)) {reason : Reason}
    (hm : w.retireOnStop = some reason) (hv : speed.natAbs ≤ 5) :
    RetiredWhole W' (warn F c) i w reason (reportStages W W' F c speed) := by
  obtain ⟨hc, hs, ho, hn, hcur, -⟩ := passedFleet_keeps W' F c
  have hX : (passedFleet W' F c).currentOf c = some (i, w) := (hcur c).trans hx
  obtain ⟨-, hw, hwc, -⟩ := (passed_book (W' := W') (c := c) hF).currentOf_some hX
  rw [passed_out_of_runOut g hF hk hr, progress_marked hX hm hv]
  refine (retire_retiredWhole (W := W') reason hw).rebase ?_
  rw [hwc]
  exact .of_holders (hc.trans (warn_cars F c).symm) hs (ho.trans (warn_occupancy F c).symm) hn
    (.inr (passedFleet_zoned W' F c))

theorem advanced_congr (g : SameGround W W') (hc : G.cars = F.cars) (w : Warrant) :
    advanced W' G c speed w = advanced W F c speed w := by
  have hrear : rearFor W' G c w.dir = rearFor W F c w.dir := by
    rw [g.rearFor]
    simp only [rearFor, runOf, hc]
  simp only [advanced, hrear, hc]

/-- A current warrant out of a run-out, not marked or with the carriage moving: activated, drawn up, and completed. -/
theorem passed_advanced (g : SameGround W W') (hF : F.Book) (hk : checkOf W F c speed = none)
    (hr : (F.cars[c]).holds.reversal = false) (hx : (warn F c).currentOf c = some (i, w))
    (hm : w.retireOnStop = none ∨ 5 < speed.natAbs) :
    let w' := advanced W F c speed w
    let H := reportStages W W' F c speed
    (completes F w' speed.natAbs = true →
      RetiredWhole W' (({ warn F c with
          cars := (warn F c).cars.set c { (warn F c).cars[c] with tripCount := 0 } } : Fleet).raise
        { carriage := some c, handle := some (F.handleOf i), value := .complete w.limit }) i w' .complete H) ∧
    (completes F w' speed.natAbs = false →
      H.slots[i] = { F.slots[i] with warrant := some w' } ∧ (warn F c).sameSlotsBut H i ∧ H.cars = (warn F c).cars ∧
        (∀ r : RunId, r = (F.cars[c]).cfg.run → H.occupancy[r] =
          if beyond w.dir (rearFor W F c w.dir) w.rear = true then
            insertEntry (entryOf (runOf W F c) (F.handleOf i) w') ((F.occupancy[r]).filter (fun e => e.handle.slot != i))
          else F.occupancy[r]) ∧
        H.notices = (warn F c).notices) := by
  intro w' H
  obtain ⟨hc, hs, ho, hn, hcur, -⟩ := passedFleet_keeps W' F c
  have hX : (passedFleet W' F c).currentOf c = some (i, w) := (hcur c).trans hx
  have hXb : (passedFleet W' F c).Book := passed_book hF
  obtain ⟨-, hw, hwc, -⟩ := hXb.currentOf_some hX
  have hwc' : w'.carriage = c := hwc
  have hadv : advanced W' (passedFleet W' F c) c speed w = w' := advanced_congr g hc w
  have hrear : rearFor W' (passedFleet W' F c) c w.dir = rearFor W F c w.dir := by
    rw [g.rearFor]
    simp only [rearFor, runOf, hc]
  have hrun : runOf W (passedFleet W' F c) c = runOf W F c := by simp only [runOf, hc]
  have hhandle : (passedFleet W' F c).handleOf i = F.handleOf i := by
    rw [Fleet.handleOf, Fleet.handleOf, hs, warn_generation]
  have hdone : completes (passedFleet W' F c) w' speed.natAbs = completes F w' speed.natAbs := by
    simp only [completes, hc]
  have hH : H = progress W' (passedFleet W' F c) c speed := passed_out_of_runOut g hF hk hr
  obtain ⟨hY, hcomplete, hstay⟩ := progress_advanced (W := W') hXb hX (by rw [hc]; exact hr) hm
  rw [hadv, hdone] at hcomplete hstay
  rw [hadv] at hY
  rw [hhandle] at hcomplete
  refine ⟨fun hd => ?_, fun hd => ?_⟩
  · rw [hH]
    refine (hcomplete hd).rebase ?_
    rw [hwc']
    have hcars : ((passedFleet W' F c).modCar c (fun k => { k with tripCount := 0 })).cars =
        (warn F c).cars.set c { (warn F c).cars[c] with tripCount := 0 } := by
      simp only [Fleet.modCar, hc, warn_cars]
    refine .of_holders hcars hs (ho.trans (warn_occupancy F c).symm) ?_ ?_
    · simp only [Fleet.raise, Fleet.modCar, hn]
    · have hself : ((passedFleet W' F c).modCar c (fun k => { k with tripCount := 0 })).cars[c] =
          { (passedFleet W' F c).cars[c] with tripCount := 0 } := Fleet.modCar_get_self _ _ _
      have hbase : ((warn F c).modCar c (fun k => { k with tripCount := 0 })).cars[c] =
          { (warn F c).cars[c] with tripCount := 0 } := Fleet.modCar_get_self _ _ _
      have h1 : Zoned W' ((warn F c).modCar c (fun k => { k with tripCount := 0 })) (warn F c) c :=
        .of_same rfl rfl (by rw [hbase]) (by rw [hbase])
      have h2 : Zoned W' (passedFleet W' F c) ((passedFleet W' F c).modCar c (fun k => { k with tripCount := 0 })) c :=
        .of_same rfl rfl (by rw [hself]) (by rw [hself])
      exact (h1.trans (.inr (passedFleet_zoned W' F c))).trans h2
  · rw [hH, hstay hd]
    refine ⟨?_, fun n hn => (hY.slots n hn).trans (by rw [hs]), hY.cars.trans (hc.trans (warn_cars F c).symm),
      fun r hq => ?_, hY.notices.trans hn⟩
    · rw [hY.slot, hs]
      exact congrArg (fun g => ({ generation := g, warrant := some w' } : Slot)) (warn_generation F c i)
    · rw [hY.list r (by rw [hc]; exact hq), hrear, hhandle, ho, g.entryOf, hrun]

/-- The standstill report that ends a run-out. -/
theorem passed_ended (g : SameGround W W') (hF : F.Book) (hk : checkOf W F c speed = none)
    (hr : (F.cars[c]).holds.reversal = true) (hv : speed.natAbs ≤ 5) :
    ∃ Z P : Fleet, Z.cars = (warn F c).cars ∧ Z.slots = (warn F c).slots ∧ Z.occupancy = (warn F c).occupancy ∧
      Z.notices = (warn F c).notices ∧ Rezoned W' (warn F c) Z c ∧
      RunOutEnds W' P c (reportStages W W' F c speed) ∧ ((warn F c).currentOf c = none → P = Z) ∧
      ∀ (i : SlotId) (w : Warrant), (warn F c).currentOf c = some (i, w) →
        (∀ reason, w.retireOnStop = some reason → RetiredWhole W' Z i w reason P) ∧
        (w.retireOnStop = none → w.state = .granted → P = Z) := by
  obtain ⟨hc, hs, ho, hn, hcur, -⟩ := passedFleet_keeps W' F c
  have hXb : (passedFleet W' F c).Book := passed_book hF
  have hXr : ((passedFleet W' F c).cars[c]).holds.reversal = true := by rw [hc]; exact hr
  have hP : Within W' c (fun _ => True) (passedFleet W' F c) (progress W' (passedFleet W' F c) c speed) :=
    .progress hXb (fun _ _ _ _ => trivial) speed
  refine ⟨passedFleet W' F c, progress W' (passedFleet W' F c) c speed, hc.trans (warn_cars F c).symm, hs,
    ho.trans (warn_occupancy F c).symm, hn, passedFleet_zoned W' F c, ?_, fun hx => progress_still (.inl ((hcur c).trans hx)),
    fun i w hx => ?_⟩
  · rw [reportStages_passed g hk]
    exact endRunOut_runOutEnds W' hP.book hv (progress_in_runOut hXb hXr speed).1
  · have hX : (passedFleet W' F c).currentOf c = some (i, w) := (hcur c).trans hx
    refine ⟨fun reason hm => ?_, fun hm hg => progress_granted_in_runOut hXb hX hm hg hXr⟩
    rw [progress_marked hX hm hv]
    exact retire_retiredWhole reason (hXb.currentOf_some hX).2.1

/-- After the end of a run-out REVERSAL is gone, and so is a marked top warrant, or any after a trip. -/
theorem ended_top_gone (g : SameGround W W') (hF : F.Book) (hr : (F.cars[c]).holds.reversal = true)
    (hv : speed.natAbs ≤ 5) :
    ((reportStages W W' F c speed).cars[c]).holds.reversal = false ∧
      ∀ (j : SlotId) (u : Warrant), F.topOf c = some (j, u) → (u.retireOnStop ≠ none ∨ checkOf W F c speed ≠ none) →
        (reportStages W W' F c speed).slots[j] = { F.slots[j] with warrant := none } := by
  cases hk : checkOf W F c speed with
  | some kind =>
    have ht := reportStages_tripped g hF hk
    generalize reportStages W W' F c speed = H at ht
    refine ⟨?_, fun j u hu _ => ht.ended j u ((runOutTop_of_reversal hr).trans hu) rfl hv⟩
    rw [ht.car]
    simp only [hv, decide_true, Bool.and_true, Bool.not_true, Bool.and_false]
  | none =>
    obtain ⟨hc, hs, -, -, -, htop⟩ := passedFleet_keeps W' F c
    have hXb : (passedFleet W' F c).Book := passed_book hF
    have hXr : ((passedFleet W' F c).cars[c]).holds.reversal = true := by rw [hc]; exact hr
    have hP : Within W' c (fun _ => True) (passedFleet W' F c) (progress W' (passedFleet W' F c) c speed) :=
      .progress hXb (fun _ _ _ _ => trivial) speed
    obtain ⟨hPr, hPst, hPs⟩ := progress_in_runOut (W := W') hXb hXr speed
    rw [reportStages_passed g hk]
    refine ⟨endRunOut_reversal W' hP.book hv, fun j u hu hm => ?_⟩
    obtain ⟨hlast, huw, huc, -⟩ := hF.topOf_some hu
    obtain ⟨u', hu', hlook⟩ := (warn_slots (look := Warrant.retireOnStop) (fun _ => rfl) F c).slot huw
    rw [← hs] at hu'
    have hhandle : (passedFleet W' F c).handleOf j = F.handleOf j := by
      rw [Fleet.handleOf, Fleet.handleOf, hs, warn_generation]
    have hXt : (passedFleet W' F c).topOf c = some (j, u') :=
      topOf_of_handle (by rw [hc, hlast, hhandle]) hu'
    have hPj := hPs j fun w hx => hXb.current_ne_top hx ((runOutTop_of_reversal hXr).trans hXt) rfl
    have hPt : (progress W' (passedFleet W' F c) c speed).topOf c = some (j, u') := by
      refine topOf_of_handle ?_ (by rw [hPj]; exact hu')
      rw [hPst, hc, hlast, ← hhandle, Fleet.handleOf, Fleet.handleOf, hPj]
    rw [endRunOut_top_gone W' hP.book hv hPr hPt (by rw [hlook]; exact hm.resolve_right (fun e => e rfl)), hPj, hs]
    exact congrArg (fun g => ({ generation := g, warrant := none } : Slot)) (warn_generation F c j)

/-- The current GRANTED warrant of a carriage whose run-out ends stays. -/
theorem ended_current (g : SameGround W W') (hF : F.Book) (hk : checkOf W F c speed = none)
    (hr : (F.cars[c]).holds.reversal = true) (hv : speed.natAbs ≤ 5) {l : LastReport} {p : Pose}
    (hl : (F.cars[c]).last = some l) (hp : (F.cars[c]).pose = some p) (hx : (warn F c).currentOf c = some (i, w))
    (hg : w.state = .granted) (hm : w.retireOnStop = none) :
    ((reportStages W W' F c speed).slots[i]).warrant = some { w with ceiling := fullCeiling W F w } ∧
      ((reportStages W W' F c speed).cars[c]).current = (F.cars[c]).current ∧
      ((reportStages W W' F c speed).cars[c]).front = frontAt (F.cars[c]).cfg p l.speed.natAbs (some w.dir) ∧
      ∀ (j : SlotId) (top : Warrant), (warn F c).topOf c = some (j, top) → top.retireOnStop = none →
        (reportStages W W' F c speed).slots[j] = (warn F c).slots[j] := by
  obtain ⟨hc, hs, -, -, hcur, htop⟩ := passedFleet_keeps W' F c
  have hXb : (passedFleet W' F c).Book := passed_book hF
  have hXr : ((passedFleet W' F c).cars[c]).holds.reversal = true := by rw [hc]; exact hr
  have hX : (passedFleet W' F c).currentOf c = some (i, w) := (hcur c).trans hx
  rw [reportStages_passed g hk, progress_granted_in_runOut hXb hX hm hg hXr]
  have hceil : fullCeiling W' (passedFleet W' F c) w = fullCeiling W F w := by
    rw [fullCeiling_congr hc, g.fullCeiling]
  obtain ⟨h1, h2, h3, h4⟩ := endRunOut_current W' hXb hv hXr hX (l := l) (p := p) (by rw [hc]; exact hl)
    (by rw [hc]; exact hp)
  rw [hceil] at h1
  rw [hc] at h2 h3
  exact ⟨h1, h2, h3, fun j top ht hm => (h4 j top ((htop c).trans ht) hm).trans (by rw [hs])⟩

end PassedReport

end Sys2Proof.Machine
end

section
namespace Sys2Proof.Machine

/-! ## An accepted report (R30 to R32) -/

section AcceptedReport

variable {W W' : World} {F G : Fleet} {c : CarId} {i : SlotId} {w : Warrant} {speed : Int}

/-- No unit of the present extent meets another carriage's claim or a zone held by another (R38). -/
theorem intrusionFails_eq : intrusionFails W F c = (occupied W F c).any (fun u =>
    (othersClaims W F c).any (fun x => unitsConflict (runOf W F c).clearance u x) ||
      ((runOf W F c).bay u.bay).any (fun b => (W.map.chain b).any (fun z =>
        decide (F.holders[z] ≠ none ∧ F.holders[z] ≠ some c)))) := by
  have hheld : ∀ b : Bay, zoneHeldByOther W F c b =
      (W.map.chain b).any (fun z => decide (F.holders[z] ≠ none ∧ F.holders[z] ≠ some c)) := fun b => by
    rw [Bool.eq_iff_iff, zoneHeldByOther_iff, List.any_eq_true]
    refine exists_congr fun z => and_congr_right fun _ => ?_
    rw [decide_eq_true_eq]
    cases F.holders[z] <;> simp
  unfold intrusionFails
  refine congrArg (fun f => (occupied W F c).any f) (funext fun u => ?_)
  cases hb : (runOf W F c).bay u.bay with
  | none => simp only [conflictsAny, Option.any_none]
  | some b => simp only [conflictsAny, Option.any_some, hheld]

/-- The checks of a report in their order, with the pose it records (R32, stages 5 and 8). -/
theorem checkOf_eq {p : Pose} (hp : (F.cars[c]).pose = some p) : checkOf W F c speed =
    if (F.cars[c]).cfg.skewLimit < p.skew then some .skew
    else if p.lower < 0 ∨ (runOf W F c).last < p.upper then some .offRun
    else if intrusionFails W F c then some .intrusion
    else envelopeCheck W F c speed := by
  unfold checkOf
  rw [trackCheck_eq hp]
  split_ifs <;> rfl

theorem warn_unsupervised (h : F.supervising c = none) : warn F c = F := by
  simp only [warn, h]

theorem warn_supervised (h : F.supervising c = some (i, w)) (hw : (F.slots[i]).warrant = some w) : warn F c =
    if warningMet F c w && !w.warned then
      ({ F with slots := F.slots.set i { F.slots[i] with warrant := some { w with warned := true } } } : Fleet).raise
        { carriage := some c, handle := some (F.handleOf i), value := .warning (w.confirm.getD w.limit) }
    else F := by
  simp only [warn, h, Fleet.modWarrant, hw, Option.map_some, Warrant.effectiveLimit]
  rfl

theorem warningMet_up {x : Int} (hd : w.dir = .up) (hf : (F.cars[c]).front = some x) :
    warningMet F c w = decide (w.confirm.getD w.limit - (F.cars[c]).cfg.warningLead < x) := by
  simp only [warningMet, hd, hf, beyond, onward, Option.getD_some, Warrant.effectiveLimit, Int.sub_eq_add_neg]

theorem warningMet_down {x : Int} (hd : w.dir = .down) (hf : (F.cars[c]).front = some x) :
    warningMet F c w = decide (x < w.confirm.getD w.limit + (F.cars[c]).cfg.warningLead) := by
  simp only [warningMet, hd, hf, beyond, onward, Option.getD_some, Warrant.effectiveLimit, Int.sub_neg]

/-- A direction of supervision gives a front (R46). -/
theorem frontAt_some (cfg : CarConfig) (p : Pose) (v : Nat) (d : Dir) : ∃ x, frontAt cfg p v (some d) = some x := by
  cases hs : standstill v with
  | true => exact ⟨p.lead d, by simp only [frontAt, hs, if_true]⟩
  | false =>
    exact ⟨onward d (p.lead d) (brakingDistance v cfg.reactionTime cfg.deceleration), by
      simp only [frontAt, hs, Bool.false_eq_true, if_false]⟩

/-- A report that passes its checks leaves the state. -/
theorem passed_state (g : SameGround W W') (hF : F.Book) (hk : checkOf W F c speed = none) :
    ((reportStages W W' F c speed).cars[c]).state = (F.cars[c]).state := by
  have h1 := passedFleet_within (T := fun _ => True) (c := c) W' hF fun _ _ _ _ => trivial
  have h2 := h1.trans (.progress h1.book (fun _ _ _ _ => trivial) speed)
  rw [reportStages_passed g hk]
  exact (h2.trans (.endRunOut h2.book (fun _ _ _ _ => trivial) _)).state

/-- The state after a report's stages. -/
theorem reportStages_state (g : SameGround W W') (hF : F.Book) (c : CarId) (speed : Int) :
    ((reportStages W W' F c speed).cars[c]).state = .tripped ∨
      ((reportStages W W' F c speed).cars[c]).state = (F.cars[c]).state := by
  cases hk : checkOf W F c speed with
  | none => exact .inr (passed_state g hF hk)
  | some kind => exact .inl (by rw [(reportStages_tripped g hF hk).car])

/-- The trip record after a first trip at a report. -/
theorem tripped_record (g : SameGround W W') (hF : F.Book) {kind : TripKind} (hk : checkOf W F c speed = some kind)
    (hs : (F.cars[c]).state ≠ .tripped) :
    ((reportStages W W' F c speed).cars[c]).trip = some { kind := kind, tick := W.now, further := 0 } := by
  rw [(reportStages_tripped g hF hk).car]
  simp only [hs, ne_eq, not_false_eq_true, decide_true, if_true]

end AcceptedReport

end Sys2Proof.Machine
end

section
namespace Sys2Proof.Machine

/-! ## The record of a report, and what the report leaves (R30 to R32) -/

section Recorded

variable {W W' : World} {F N : Fleet} {c : CarId} {i : SlotId} {w : Warrant} {speed : Int} {positions : List Nat}

/-- `N` is `F` with carriage `c`'s report recorded, as stages 1 to 4 leave it (R32). -/
structure Recorded (W : World) (F : Fleet) (c : CarId) (positions : List Nat) (speed : Int) (N : Fleet) : Prop where
  car : N.cars[c] = recordedCar W F c positions speed
  cars : F.sameCarsBut N c
  slots : N.slots = F.slots
  occupancy : N.occupancy = F.occupancy
  holders : N.holders = F.holders

theorem recordReport_recorded (W : World) (F : Fleet) (c : CarId) (positions : List Nat) (speed : Int) :
    Recorded W F c positions speed (recordReport W F c positions speed) := by
  let f : Carriage → Carriage := fun _ => recordedCar W F c positions speed
  rw [recordReport_eq]
  exact ⟨F.modCar_get_self c f, fun _ hd => F.modCar_get_other f hd, rfl, rfl, rfl⟩

namespace Recorded

variable (h : Recorded W F c positions speed N)
include h

theorem cfg : (N.cars[c]).cfg = (F.cars[c]).cfg := by rw [h.car]; rfl

theorem pose : (N.cars[c]).pose = some (poseOf (F.cars[c]).cfg positions) := by rw [h.car]; rfl

theorem last : (N.cars[c]).last = some { positions := positions, speed := speed, tick := W.now } := by rw [h.car]; rfl

theorem mute : (N.cars[c]).mute = (F.cars[c]).mute := by rw [h.car]; rfl

theorem current : (N.cars[c]).current = (F.cars[c]).current := by rw [h.car]; rfl

theorem stack : (N.cars[c]).stack = (F.cars[c]).stack := by rw [h.car]; rfl

theorem reversal : (N.cars[c]).holds.reversal = (F.cars[c]).holds.reversal := by rw [h.car]; rfl

theorem state : (N.cars[c]).state =
    if (F.cars[c]).state = .tripped then .tripped else if speed.natAbs ≤ 5 then .standing else .moving := by
  rw [h.car]
  exact stateBySpeed_eq _ _

theorem not_tripped (hs : (F.cars[c]).state ≠ .tripped) : (N.cars[c]).state ≠ .tripped := by
  rw [h.state, if_neg hs]
  split <;> exact CarState.noConfusion

theorem run : runOf W N c = W.map.runs[(F.cars[c]).cfg.run] := by
  simp only [runOf, h.cfg]

theorem handleOf (i : SlotId) : N.handleOf i = F.handleOf i := by rw [Fleet.handleOf, Fleet.handleOf, h.slots]

theorem currentOf : N.currentOf c = F.currentOf c := currentOf_congr h.current h.slots

theorem topOf : N.topOf c = F.topOf c := topOf_congr h.stack h.slots

theorem supervising : N.supervising c = F.supervising c := supervising_congr h.current h.stack h.reversal h.slots

/-- The book reads nothing of what is recorded. -/
theorem book (hF : F.Book) : N.Book := by
  refine BookAkin.book (F := F) ⟨fun d => ?_, fun d => ?_, .of_eq h.slots⟩ hF
  all_goals by_cases hd : d = c
  · subst hd; exact h.current
  · rw [h.cars d hd]
  · subst hd; exact h.stack
  · rw [h.cars d hd]

/-- A supervised report records a front (R46). -/
theorem front (hs : F.supervising c = some (i, w)) : ∃ x, (N.cars[c]).front = some x := by
  obtain ⟨x, hx⟩ := frontAt_some (F.cars[c]).cfg (poseOf (F.cars[c]).cfg positions) speed.natAbs w.dir
  exact ⟨x, by rw [h.car, ← hx, recordedCar, supervisionDir_eq, hs]⟩

/-- The marks set are those of the bays that the recorded extent touches (R21). -/
theorem marks (v : Nat) : setMarks W N c v = W.withBays (F.cars[c]).cfg.run
    (markBays ((occupied W N c).map TrackUnit.bay) (standstill v) 0 (W.map.runs[(F.cars[c]).cfg.run]).bays) := by
  simp only [setMarks, h.cfg] <;> rfl

end Recorded

/-- What a report leaves of the record of its carriage, the end of mute included. -/
theorem report_outcome (g : SameGround W W') (hN : N.Book) (c : CarId) (speed : Int) :
    let G := endMute W' (reportStages W W' N c speed) c
    ReportFrame W N c G ∧ (G.cars[c]).mute = false ∧
      ((N.cars[c]).mute = true → (G.cars[c]).holds.mute = false) ∧
      ((G.cars[c]).state = .tripped ∨ (G.cars[c]).state = (N.cars[c]).state) ∧
      ∀ kind, checkOf W N c speed = some kind → (N.cars[c]).state ≠ .tripped →
        (G.cars[c]).trip = some { kind := kind, tick := W.now, further := 0 } := by
  intro G
  obtain ⟨hH, hHmute⟩ := reportStages_frame g hN c speed
  obtain ⟨hG, hmute, hstate, htrip, hheld⟩ := endMute_frame g hH
  refine ⟨hG, hmute, fun hm => hheld (hHmute.trans hm), ?_, fun kind hk hs => htrip.trans (tripped_record g hN hk hs)⟩
  rw [show (G.cars[c]).state = _ from hstate]
  exact reportStages_state g hN c speed

end Recorded

theorem markBays_length (nums : List Nat) (stopped : Bool) (b : Nat) (bays : List Bay) :
    (markBays nums stopped b bays).length = bays.length := by
  simpa only [List.length_map] using
    congrArg List.length (markBays_map (fun _ => ()) (fun _ _ _ => rfl) nums stopped b bays)

/-- A report that is not acceptable is refused (R30). -/
theorem reportRule_refused (o : Origin) {q : ReportBody} {r : Records} {c : CarId} (hc : q.carriage = c.val)
    (hbad : (r.fleet.cars[c]).state = .unconfigured ∨ q.positions.length ≠ (r.fleet.cars[c]).cfg.offsets.length ∨
      ∃ x ∈ q.positions, 1048575 < x) : reportRule o q r = (r, plain .badForm) := by
  have ha : ¬acceptsReport r.fleet.cars[c] q = true := fun e => by
    obtain ⟨hconf, hlen, hpos⟩ := (acceptsReport_iff _ _).mp e
    rcases hbad with hb | hb | ⟨x, hm, hb⟩
    · exact hconf hb
    · exact hb hlen
    · exact absurd (hpos x hm) (Nat.not_le.mpr hb)
  rw [reportRule, hc, inTable_val]
  exact if_neg ha

/-- Settles O38. -/
theorem reportRecordsReadings : Obligations.ReportRecordsReadings := by
  refine ⟨fun p f rest s q h hx hq => h.answers hx ?_, fun p f rest s q c h hx hq => ?_⟩
  · rw [reportRule, inTable_of_ge hq]
    rfl
  intro W F k run speed v pz
  refine ⟨fun hbad => h.answers hx (reportRule_refused _ hq hbad), fun hconf hlen hpos hF => ?_⟩
  obtain ⟨N, hN⟩ : ∃ N, recordReport W F c q.positions speed = N := ⟨_, rfl⟩
  have hR : Recorded W F c q.positions speed N := hN ▸ recordReport_recorded W F c q.positions speed
  have hNb : N.Book := hR.book hF
  let bays := markBays ((occupied W N c).map TrackUnit.bay) (standstill v) 0 run.bays
  have g : SameGround W (W.withBays k.cfg.run bays) := hR.marks v ▸ setMarks_sameGround W N c v
  have hout := takeReport_stages W F c q.positions hNb hN
  obtain ⟨hframe, hmute, hheld, hstate, htrip⟩ := report_outcome g hNb c speed
  obtain ⟨H, hH⟩ : ∃ H, reportStages W (W.withBays k.cfg.run bays) N c speed = H := ⟨_, rfl⟩
  obtain ⟨G, hG⟩ : ∃ G, endMute (W.withBays k.cfg.run bays) H c = G := ⟨_, rfl⟩
  rw [show setMarks W N c speed.natAbs = W.withBays k.cfg.run bays from hR.marks v, hH, hG] at hout
  rw [hH, hG] at hframe hmute hheld hstate htrip
  refine ⟨bays, H, G, ?_⟩
  intro W' k' side F1 intrudes check near F2
  have hF1 : F1 = N := by
    rw [← hN, recordReport_eq, recordedCar, supervisionDir_eq, stateBySpeed_eq] <;> rfl
  have hcheck : check = checkOf W N c speed := by
    have hi : intrudes = intrusionFails W N c := by rw [intrusionFails_eq, hR.run, hR.holders, ← hF1]
    rw [checkOf_eq hR.pose, hR.run, hR.cfg, ← hi, ← hF1]
  have hF2 : F2 = warn N c := by
    cases hs : F.supervising c with
    | none =>
      rw [warn_unsupervised (hR.supervising.trans hs), ← hF1]
      simp only [F2, hs]
    | some x =>
      obtain ⟨j, w⟩ := x
      have hNs := hR.supervising.trans hs
      have hnear : near w = warningMet N c w := by
        obtain ⟨x, hx⟩ := hR.front hs
        simp only [near, hF1, hx]
        cases hd : w.dir with
        | up => rw [warningMet_up hd hx, hR.cfg]
        | down => rw [warningMet_down hd hx, hR.cfg]
      rw [warn_supervised hNs (hNb.supervising_some hNs).1, ← hnear, hR.handleOf, ← hF1]
      simp only [F2, hs]
  have hoccupied : occupied W G c = occupied W N c := by
    simp only [occupied, presentExtent, runOf, hframe.cfg, hframe.pose] <;> rfl
  rw [hF1, hF2, hcheck, ← hR.currentOf, ← hR.topOf]
  refine ⟨h.answers hx ?_, ?_, hframe.cfg.trans hR.cfg, hframe.last.trans hR.last, hframe.pose.trans hR.pose, hmute,
    fun hm => hheld (hR.mute.trans hm), fun ht => ?_, ?_, fun hs hk => htrip _ ?_ (hR.not_tripped hs),
    fun hs hk ho => htrip _ ?_ (hR.not_tripped hs), markBays_length _ _ _ _, fun b bay hb => ?_,
    fun d hd => (hframe.cars d hd).trans (hR.cars d hd), hframe.zones.of_holders hR.holders, fun i hi => ?_,
    fun r hr => ?_, ?_⟩
  · rw [reportRule_accepted _ hq ((acceptsReport_iff _ _).mpr ⟨hconf, hlen, hpos⟩)]
    simp only []
    rw [show takeReport s.records.world s.records.fleet c q.positions (clampSpeed q.speed) = _ from hout]
    rfl
  · have hHm : (H.cars[c]).mute = k.mute := hH ▸ (reportStages_frame g hNb c speed).2.trans hR.mute
    rw [← hG, endMute_eq, hHm]
    rfl
  · exact hstate.elim id fun e => e.trans (hR.state.trans (if_pos ht))
  · refine hstate.elim .inl fun e => ?_
    rw [hR.state] at e
    split at e
    · exact .inl e
    · exact .inr e
  · rw [checkOf_eq hR.pose, hR.cfg, if_pos hk]
  · rw [checkOf_eq hR.pose, hR.run, hR.cfg, if_neg (Nat.not_lt.mpr hk), if_pos ho]
  · rw [hoccupied, markBays_get, hb, Option.map_some, Nat.zero_add]
    rfl
  · rw [hframe.slots i fun ⟨w, hw, hc⟩ => hi w (hR.slots ▸ hw) hc, hR.slots]
  · rw [hframe.lists r (by rw [hR.cfg]; exact hr), hR.occupancy]
  · have hr : (N.cars[c]).holds.reversal = k.holds.reversal := hR.reversal
    rw [← hH, ← hr, ← hR.occupancy, ← hR.slots, ← hR.current]
    refine ⟨fun kind hk => reportStages_tripped g hNb hk, fun hk hc he => passed_still g hk (.inl hc) he,
      fun hk hr i w hx => ⟨fun reason hm hv => passed_marked g hNb hk hr hx hm hv, fun hm => ?_⟩,
      fun hk hr hv => passed_still g hk (.inr ⟨hr, hv⟩) (.inr hv), fun hk hr hv => passed_ended g hNb hk hr hv,
      fun hr hv => ?_⟩
    · obtain ⟨-, -, hwc, -⟩ := ((Akin.warn N c).book.book hNb).currentOf_some hx
      obtain ⟨hdone, hstay⟩ := passed_advanced g hNb hk hr hx hm
      intro along starts drawn w' left done
      have hw' : advanced W N c speed w = w' := by
        simp only [advanced, hR.car] <;> rfl
      have hd : done ↔ completes N w' v = true := by
        rw [completes_iff (w := w') hwc hR.pose, hR.cfg]
        rfl
      rw [hw'] at hdone hstay
      rw [hd, Bool.not_eq_true, ← hR.handleOf]
      refine ⟨hdone, fun hnot => ?_⟩
      obtain ⟨hslot, hslots, hcars, hlist, hnotices⟩ := hstay hnot
      rw [hR.run] at hlist
      exact ⟨hslot, hslots, hcars, hlist _ (congrArg CarConfig.run hR.cfg.symm), hnotices⟩
    · obtain ⟨hgone, htop⟩ := ended_top_gone (W' := W.withBays k.cfg.run bays) g hNb hr hv
      refine ⟨hgone, htop, fun hk i w hx hg hm => ?_⟩
      have hend := ended_current g hNb hk hr hv hR.last hR.pose hx hg hm
      rw [hR.cfg] at hend
      exact hend

end Sys2Proof.Machine
end

section
namespace Sys2Proof.Machine

/-! ## Numbers in bytes (10.2) -/

section Numbers

@[simp] theorem be_length (k x : Nat) : (be k x).length = k := by
  induction k with
  | zero => rfl
  | succ k ih => simp [be, ih]

@[simp] theorem beSigned_length (k : Nat) (x : Int) : (beSigned k x).length = k := be_length _ _

/-- Reading `k` bytes of a number on from a value puts its last `k` digits behind the value. -/
theorem foldl_be (k x acc : Nat) :
    (be k x).foldl (fun acc b => acc * 256 + b.toNat) acc = acc * 256 ^ k + x % 256 ^ k := by
  induction k generalizing acc with
  | zero => simp [be, Nat.mod_one]
  | succ k ih =>
    have hdigit : (BitVec.ofNat 8 (x / 256 ^ k)).toNat = x / 256 ^ k % 256 := BitVec.toNat_ofNat _ _
    rw [be, List.foldl_cons, ih, hdigit, Nat.pow_succ, Nat.mod_mul (x := x)]
    ring

/-- A number comes back from its bytes when they are enough for it. -/
theorem number_be {k x : Nat} (h : x < 256 ^ k) : number (be k x) = x := by
  rw [number, foldl_be, Nat.mod_eq_of_lt h]
  omega

/-- A signed number comes back from its bytes in two's complement. -/
theorem asSigned_beSigned {k : Nat} {x : Int} (h0 : -(256 ^ k : Nat) ≤ 2 * x) (h1 : 2 * x < (256 ^ k : Nat)) :
    asSigned k (number (beSigned k x)) = x := by
  have hpos : (0 : Int) < (256 ^ k : Nat) := by exact_mod_cast Nat.pow_pos (n := k) (by decide : 0 < 256)
  have hmod := Int.emod_nonneg x hpos.ne'
  have hlt := Int.emod_lt_of_pos x hpos
  rw [beSigned, number_be (by omega), asSigned]
  by_cases hx : 0 ≤ x
  · rw [Int.emod_eq_of_lt hx (by omega)]
    split <;> omega
  · have hval : x % (256 ^ k : Nat) = x + (256 ^ k : Nat) := by
      rw [← Int.add_emod_right, Int.emod_eq_of_lt (by omega) (by omega)]
    rw [hval]
    split <;> omega

/-! ### Fields of a body -/

/-- The field at the front of a body. -/
theorem field_be {k x off : Nat} (rest : List Byte) (h0 : off = 0) (h : x < 256 ^ k) :
    field (be k x ++ rest) off k = x := by
  rw [field, h0, List.drop_zero, List.take_left' (be_length k x), number_be h]

/-- A field behind the first bytes of a body is read from the rest. -/
theorem field_skip {a : List Byte} {n : Nat} (ha : a.length = n) (b : List Byte) {off : Nat} (h : n ≤ off) (k : Nat) :
    field (a ++ b) off k = field b (off - n) k := by
  rw [field, field, List.drop_append, List.drop_eq_nil_of_le (by omega), List.nil_append, ha]

theorem field_skip_be {j x off k : Nat} (rest : List Byte) (h : j ≤ off) :
    field (be j x ++ rest) off k = field rest (off - j) k := field_skip (be_length j x) rest h k

section Rows

variable {α : Type} {enc : α → List Byte} {k : Nat}

theorem flatMap_length (henc : ∀ x, (enc x).length = k) (xs : List α) : (xs.flatMap enc).length = k * xs.length := by
  simp [List.length_flatMap, henc, Nat.mul_comm]

theorem field_flatMap (henc : ∀ x, (enc x).length = k) (xs : List α) (rest : List Byte) (i : Nat) (hi : i < xs.length) :
    field (xs.flatMap enc ++ rest) (k * i) k = number (enc xs[i]) := by
  induction xs generalizing i with
  | nil => simp at hi
  | cons x xs ih =>
    rw [List.flatMap_cons, List.append_assoc]
    cases i with
    | zero => rw [field, Nat.mul_zero, List.drop_zero, List.take_left' (henc x), List.getElem_cons_zero]
    | succ i =>
      rw [Nat.mul_succ, field_skip (henc x) _ (Nat.le_add_left _ _), Nat.add_sub_cancel, ih i (by simpa using hi),
        List.getElem_cons_succ]

/-- A row of fields of one width, somewhere in a body, is read off field by field. -/
theorem map_field_flatMap {β : Type} (henc : ∀ x, (enc x).length = k) {pre : List Byte} {n : Nat} (hpre : pre.length = n)
    (xs : List α) (rest : List Byte) (g : Nat → β) :
    (List.range xs.length).map (fun i => g (field (pre ++ (xs.flatMap enc ++ rest)) (n + k * i) k)) =
      xs.map (fun x => g (number (enc x))) := by
  refine List.ext_getElem (by simp) fun i h _ => ?_
  have hi : i < xs.length := by simpa using h
  simp only [List.getElem_map, List.getElem_range]
  rw [field_skip hpre _ (Nat.le_add_right _ _), Nat.add_sub_cancel_left, field_flatMap henc xs rest i hi]

end Rows

end Numbers

/-! ## Bodies of varying length (R26, R30) -/

section Bodies

theorem encodeReport_length (r : ReportBody) : (encodeReport r).length = 3 + 3 * r.positions.length := by
  simp [encodeReport, flatMap_length (be_length 3)]
  omega

/-- A `report` comes back from its bytes. -/
theorem decodeReport_encodeReport (r : ReportBody) (hc : r.carriage < 256) (h1 : 1 ≤ r.positions.length)
    (h8 : r.positions.length ≤ 8) (hx : ∀ x ∈ r.positions, x < 2 ^ 24) (hlo : -(2 ^ 15) ≤ r.speed)
    (hhi : r.speed < 2 ^ 15) : decodeReport (encodeReport r) = some r := by
  have hlen := encodeReport_length r
  have hk : (encodeReport r).length / 3 - 1 = r.positions.length := by omega
  have hcar : field (encodeReport r) 0 1 = r.carriage := by
    rw [encodeReport, List.append_assoc, field_be _ rfl (by omega)]
  have hpos : (List.range r.positions.length).map (fun i => field (encodeReport r) (1 + 3 * i) 3) = r.positions := by
    rw [encodeReport, List.append_assoc]
    refine (map_field_flatMap (be_length 3) (be_length 1 _) _ _ id).trans ?_
    refine (List.map_congr_left fun x h => ?_).trans (List.map_id _)
    exact congrArg id (number_be (hx x h))
  have hspeed : asSigned 2 (field (encodeReport r) (1 + 3 * r.positions.length) 2) = r.speed := by
    have hpre : (be 1 r.carriage ++ r.positions.flatMap (be 3)).length = 1 + 3 * r.positions.length := by
      simp [flatMap_length (be_length 3)]
    rw [encodeReport, field_skip hpre _ le_rfl, Nat.sub_self, field, List.drop_zero,
      List.take_of_length_le (beSigned_length 2 _).le, asSigned_beSigned (by norm_num; omega) (by norm_num; omega)]
  rw [decodeReport]
  simp only [hk, hcar, hpos, hspeed]
  rw [if_pos ⟨hlen, h1, h8⟩]

theorem encodeSetCar_length (r : SetCarBody) : (encodeSetCar r).length = 27 + 2 * r.offsets.length := by
  simp [encodeSetCar, flatMap_length (beSigned_length 2)]
  omega

/-- The bytes of a `setcar` before its offsets. -/
def setCarHead (r : SetCarBody) : List Byte :=
  be 1 r.carriage ++ be 1 r.configured ++ be 1 r.run ++ be 1 r.offsets.length

/-- The bytes of a `setcar` behind its offsets. -/
def setCarTail (r : SetCarBody) : List Byte :=
  be 2 r.lowerReach ++ be 2 r.upperReach ++ be 2 r.maxSpeed ++ be 1 r.creepSpeed ++ be 2 r.deceleration ++
    be 2 r.reactionTime ++ be 2 r.skewLimit ++ be 2 r.reportInterval ++ be 2 r.warningLead ++ be 2 r.stopWindow ++
    be 1 r.threshold ++ be 3 r.homeReference

theorem encodeSetCar_eq (r : SetCarBody) :
    encodeSetCar r = setCarHead r ++ (r.offsets.flatMap (beSigned 2) ++ setCarTail r) := by
  simp only [encodeSetCar, setCarHead, setCarTail, List.append_assoc]

theorem setCarHead_length (r : SetCarBody) : (setCarHead r).length = 4 := by simp [setCarHead]

/-- A field behind the offsets of a `setcar` is read from its tail. -/
theorem field_encodeSetCar_tail (r : SetCarBody) (off k : Nat) :
    field (encodeSetCar r) (4 + 2 * r.offsets.length + off) k = field (setCarTail r) off k := by
  rw [encodeSetCar_eq, field_skip (setCarHead_length r) _ (by omega),
    field_skip (flatMap_length (beSigned_length 2) r.offsets) _ (by omega)]
  congr 1
  omega

/-- The four bytes before the offsets of a `setcar`. -/
theorem field_encodeSetCar_head (r : SetCarBody) (hc : r.carriage < 256) (hy : r.configured < 256) (hr : r.run < 256)
    (hn : r.offsets.length < 256) :
    field (encodeSetCar r) 0 1 = r.carriage ∧ field (encodeSetCar r) 1 1 = r.configured ∧
      field (encodeSetCar r) 2 1 = r.run ∧ field (encodeSetCar r) 3 1 = r.offsets.length := by
  simp only [encodeSetCar_eq, setCarHead, List.append_assoc]
  refine ⟨?_, ?_, ?_, ?_⟩ <;> simp (disch := omega) only [field_skip_be, field_be]

/-- The offsets of a `setcar` come back one by one, negative ones included. -/
theorem offsets_encodeSetCar (r : SetCarBody) (ho : ∀ x ∈ r.offsets, -(2 ^ 15) ≤ x ∧ x < 2 ^ 15) :
    (List.range r.offsets.length).map (fun i => asSigned 2 (field (encodeSetCar r) (4 + 2 * i) 2)) = r.offsets := by
  rw [encodeSetCar_eq]
  refine (map_field_flatMap (beSigned_length 2) (setCarHead_length r) _ _ (asSigned 2)).trans ?_
  refine (List.map_congr_left fun x h => ?_).trans (List.map_id _)
  obtain ⟨hlo, hhi⟩ := ho x h
  exact asSigned_beSigned (by norm_num; omega) (by norm_num; omega)

/-- A `setcar` comes back from its bytes. -/
theorem decodeSetCar_encodeSetCar (r : SetCarBody) (hc : r.carriage < 256) (hy : r.configured < 256) (hr : r.run < 256)
    (hn : r.offsets.length < 256) (ho : ∀ x ∈ r.offsets, -(2 ^ 15) ≤ x ∧ x < 2 ^ 15) (hlow : r.lowerReach < 2 ^ 16)
    (hup : r.upperReach < 2 ^ 16) (hmax : r.maxSpeed < 2 ^ 16) (hcreep : r.creepSpeed < 256)
    (hdec : r.deceleration < 2 ^ 16) (hreact : r.reactionTime < 2 ^ 16) (hskew : r.skewLimit < 2 ^ 16)
    (hint : r.reportInterval < 2 ^ 16) (hlead : r.warningLead < 2 ^ 16) (hwin : r.stopWindow < 2 ^ 16)
    (hthr : r.threshold < 256) (hhome : r.homeReference < 2 ^ 24) : decodeSetCar (encodeSetCar r) = some r := by
  obtain ⟨hcar, hconf, hrun, hcount⟩ := field_encodeSetCar_head r hc hy hr hn
  have hfirst := field_encodeSetCar_tail r 0 2
  rw [Nat.add_zero] at hfirst
  rw [decodeSetCar]
  simp only [hcount, encodeSetCar_length, if_true, hcar, hconf, hrun, offsets_encodeSetCar r ho, hfirst,
    field_encodeSetCar_tail]
  simp only [setCarTail, List.append_assoc]
  have hlast : field (be 3 r.homeReference) 0 3 = r.homeReference := by
    rw [← List.append_nil (be 3 r.homeReference), field_be _ rfl (by omega)]
  simp (disch := omega) only [field_skip_be, field_be, Nat.reduceSub, hlast]

end Bodies

/-! ## Request frames (10.2, R173) -/

section Frames

variable (start b2 b3 b4 : Byte) (body : List Byte)

/-- The bytes of a frame that its CRC covers. -/
def frameInner : List Byte := BitVec.ofNat 8 body.length :: b2 :: b3 :: b4 :: body

theorem frameBytes_eq : frameBytes start b2 b3 b4 body =
    start :: (frameInner b2 b3 b4 body ++ be 2 (crc16 (frameInner b2 b3 b4 body)).toNat) := rfl

theorem frameInner_length : (frameInner b2 b3 b4 body).length = body.length + 4 := rfl

theorem frameBytes_length : (frameBytes start b2 b3 b4 body).length = body.length + 7 := by
  simp [frameBytes_eq, frameInner_length]

/-- The length byte of a frame fits its bytes. -/
theorem wholeFrame_frameBytes (h : body.length ≤ 120) : wholeFrame (frameBytes 0xA5 b2 b3 b4 body) = true := by
  have hn : (BitVec.ofNat 8 body.length).toNat = body.length := by
    rw [BitVec.toNat_ofNat, Nat.mod_eq_of_lt (by omega)]
  simp [frameBytes, wholeFrame, hn, h]

/-- The CRC of a frame stands where the check looks for it, over the bytes it looks at. -/
theorem crcMatches_frameBytes : crcMatches (frameBytes start b2 b3 b4 body) = true := by
  rw [crcMatches, frameBytes_length, frameBytes_eq, beq_iff_eq]
  have hinner : ((start :: (frameInner b2 b3 b4 body ++ be 2 (crc16 (frameInner b2 b3 b4 body)).toNat)).drop 1).take
      (body.length + 7 - 3) = frameInner b2 b3 b4 body := List.take_left' (frameInner_length b2 b3 b4 body)
  rw [hinner, ← List.cons_append]
  exact (List.drop_left' (by simp [frameInner_length])).symm

/-- A frame's fields come back from its bytes. -/
theorem frameOf_frameBytes : frameOf (frameBytes start b2 b3 b4 body) =
    { station := b2, tag := b3, code := b4, body := body } := by
  rw [frameOf, frameBytes_length]
  exact congrArg (Frame.mk b2 b3 b4) (List.take_left' rfl)

end Frames

/-- Settles O20: each body field by field, and the frame by where its CRC stands. -/
theorem varyingBodiesAndFrames : Obligations.VaryingBodiesAndFrames :=
  ⟨decodeReport_encodeReport, decodeSetCar_encodeSetCar, fun station tag code body h =>
    ⟨wholeFrame_frameBytes station tag code body h, crcMatches_frameBytes _ station tag code body,
      frameOf_frameBytes _ station tag code body⟩⟩

end Sys2Proof.Machine
end

section
namespace Sys2Proof.Machine

/-! ## Readings of a report (R33) -/

section Readings

theorem greatest_eq_max? {xs : List Int} (h : xs ≠ []) : xs.max? = some (greatest xs) := by
  cases xs with
  | nil => exact absurd rfl h
  | cons x xs => rfl

theorem least_eq_min? {xs : List Int} (h : xs ≠ []) : xs.min? = some (least xs) := by
  cases xs with
  | nil => exact absurd rfl h
  | cons x xs => rfl

/-- The greatest of some integers is one of them, and no less than any. -/
theorem greatest_spec {xs : List Int} (h : xs ≠ []) : greatest xs ∈ xs ∧ ∀ x ∈ xs, x ≤ greatest xs :=
  List.max?_eq_some_iff.mp (greatest_eq_max? h)

/-- The least of some integers is one of them, and no greater than any. -/
theorem least_spec {xs : List Int} (h : xs ≠ []) : least xs ∈ xs ∧ ∀ x ∈ xs, least xs ≤ x :=
  List.min?_eq_some_iff.mp (least_eq_min? h)

variable {cfg : CarConfig} {positions : List Nat}

theorem poseOf_reference (cfg : CarConfig) (positions : List Nat) : (poseOf cfg positions).reference =
    (greatest (readings cfg positions) + least (readings cfg positions)) / 2 := rfl

theorem poseOf_skew (cfg : CarConfig) (positions : List Nat) : (poseOf cfg positions).skew =
    (greatest (readings cfg positions) - least (readings cfg positions)).toNat := rfl

/-- A reading is the position of a truck less its offset. -/
theorem exists_of_mem_readings {x : Int} (h : x ∈ readings cfg positions) :
    ∃ p ∈ positions, ∃ o ∈ cfg.offsets, x = (p : Int) - o := by
  obtain ⟨i, hi, rfl⟩ := List.mem_iff_getElem.mp h
  rw [readings, List.length_zipWith] at hi
  exact ⟨_, List.getElem_mem (by omega), _, List.getElem_mem (by omega), List.getElem_zipWith⟩

theorem readings_ne_nil (hn : positions.length = cfg.offsets.length) (hp : positions ≠ []) :
    readings cfg positions ≠ [] := by
  rw [← List.length_pos_iff] at hp ⊢
  rw [readings, List.length_zipWith]
  omega

/-- The reference is the floor of half the sum of the outermost readings, and the skew their difference. -/
theorem poseOf_outermost (h : readings cfg positions ≠ []) :
    ∃ hi ∈ readings cfg positions, ∃ lo ∈ readings cfg positions, (∀ x ∈ readings cfg positions, lo ≤ x ∧ x ≤ hi) ∧
      2 * (poseOf cfg positions).reference ≤ hi + lo ∧ hi + lo < 2 * (poseOf cfg positions).reference + 2 ∧
      ((poseOf cfg positions).skew : Int) = hi - lo := by
  obtain ⟨hgm, hg⟩ := greatest_spec h
  obtain ⟨hlm, hl⟩ := least_spec h
  have hle := hg _ hlm
  refine ⟨_, hgm, _, hlm, fun x hx => ⟨hl x hx, hg x hx⟩, ?_, ?_, ?_⟩
  · rw [poseOf_reference]; omega
  · rw [poseOf_reference]; omega
  · rw [poseOf_skew]; omega

/-- Readings of positions and offsets in their ranges. -/
theorem readings_bounds (hp : ∀ p ∈ positions, p ≤ 1048575) (ho : ∀ o ∈ cfg.offsets, -32768 ≤ o ∧ o ≤ 32767) {x : Int}
    (h : x ∈ readings cfg positions) : -32767 ≤ x ∧ x ≤ 1081343 := by
  obtain ⟨p, hpm, o, hom, rfl⟩ := exists_of_mem_readings h
  have := hp p hpm
  have := ho o hom
  omega

end Readings

/-! ## The units of an extent (R5, R34) -/

section Extent

variable {W : World} {F : Fleet} {c : CarId} {pose : Pose}

/-- A carriage occupies the units that the part of its extent on its run touches; where no part lies on it, none. -/
theorem occupied_of_pose (h : (F.cars[c]).pose = some pose) : occupied W F c =
    (runOf W F c).units.filter (fun u => decide (max pose.lower 0 ≤ min pose.upper (runOf W F c).last ∧
      u.first ≤ min pose.upper (runOf W F c).last ∧ max pose.lower 0 < u.stop)) := by
  rw [occupied, presentExtent, h]
  by_cases hon : max pose.lower 0 ≤ min pose.upper (runOf W F c).last
  · simp only [if_pos hon, Run.touched, Int.le_sub_one_iff]
  · simp [hon]

end Extent

/-- Settles O23: the outermost readings are the greatest and the least, and bounds on readings bound what is between
them. -/
theorem referenceAndSkew : Obligations.ReferenceAndSkew := by
  intro cfg positions hn hp
  have hne := readings_ne_nil hn hp
  obtain ⟨hi, hhi, lo, hlo, hall, hfloor, hceil, hskew⟩ := poseOf_outermost hne
  dsimp only
  refine ⟨⟨hi, hhi, lo, hlo, hall, hfloor, hceil, hskew⟩, fun hps hos => ?_, fun r0 hr => ?_, rfl, rfl,
    fun W F c h => occupied_of_pose h⟩
  · have hbounds : ∀ x ∈ readings cfg positions, -32767 ≤ x ∧ x ≤ 1081343 := fun x hx => readings_bounds hps hos hx
    have hhigh := hbounds hi hhi
    have hlow := hbounds lo hlo
    refine ⟨hbounds, ?_, ?_, ?_⟩ <;> omega
  · have hone : readings cfg positions = [r0] := hr
    have hhi0 : hi = r0 := List.mem_singleton.mp (hone ▸ hhi)
    have hlo0 : lo = r0 := List.mem_singleton.mp (hone ▸ hlo)
    constructor <;> omega

end Sys2Proof.Machine
end

section
namespace Sys2Proof.Machine

/-! ## setcar (R26 to R29) -/

section Setcar

variable {r : Records} (o : Origin) {q : SetCarBody} {c : CarId} {run : RunId}

/-- A field of a `setcar` is out of its range, but for carriage, configured and run. -/
theorem setCarInRange_eq_false_iff (q : SetCarBody) : setCarInRange q = false ↔
    (q.offsets.length < 1 ∨ 8 < q.offsets.length ∨ q.maxSpeed < 1 ∨ 1000 < q.maxSpeed ∨ q.creepSpeed < 1 ∨
      200 < q.creepSpeed ∨ q.maxSpeed < q.creepSpeed ∨ q.deceleration < 10 ∨ 2000 < q.deceleration ∨
      2000 < q.reactionTime ∨ 500 < q.skewLimit ∨ q.reportInterval < 50 ∨ 5000 < q.reportInterval ∨
      5000 < q.warningLead ∨ 500 < q.stopWindow ∨ q.threshold < 2 ∨ 5 < q.threshold ∨ 1048575 < q.homeReference) := by
  rw [setCarInRange, Bool.and_eq_false_iff, decide_eq_false_iff_not, decide_eq_false_iff_not]
  omega

/-- A `setcar` that names a carriage and a run comes to its further fields, and then to the carriage's state. -/
theorem setcarRule_of_named (hl : r.world.map.locked = false) (hc : q.carriage = c.val) (hr : q.run = run.val) :
    setcarRule o q r =
      if q.configured ≠ 1 then (r, plain .badForm)
      else if !setCarInRange q then (r, plain .badForm)
      else if (r.fleet.cars[c]).state = .tripped then (r, plain .badState)
      else (r.withFleet (r.fleet.modCar c (configure (configOf run q))), plain .done) := by
  rw [setcarRule, lockFirst_unlocked hl, hc, hr, inTable_val, inTable_val]
  rfl

/-- A field of a `setcar` out of its range is refused. -/
theorem setcarRule_badForm (hl : r.world.map.locked = false)
    (hq : 15 < q.carriage ∨ q.configured ≠ 1 ∨ 7 < q.run ∨ setCarInRange q = false) :
    setcarRule o q r = (r, plain .badForm) := by
  by_cases hc : q.carriage < 16
  · by_cases hr : q.run < 8
    · rw [setcarRule_of_named o hl (c := ⟨q.carriage, hc⟩) (run := ⟨q.run, hr⟩) rfl rfl]
      split
      · rfl
      · rename_i hconf
        have hrange : setCarInRange q = false :=
          ((hq.resolve_left (by omega)).resolve_left hconf).resolve_left (by omega)
        rw [hrange]
        rfl
    · rw [setcarRule, lockFirst_unlocked hl, inTable_of_ge (Nat.not_lt.mp hr)]
      split
      · contradiction
      · rfl
  · rw [setcarRule, lockFirst_unlocked hl, inTable_of_ge (Nat.not_lt.mp hc)]

/-- A `setcar` in its ranges is taken unless the carriage is TRIPPED. -/
theorem setcarRule_inRange (hl : r.world.map.locked = false) (hc : q.carriage = c.val) (hr : q.run = run.val)
    (h1 : q.configured = 1) (hq : setCarInRange q = true) :
    ((r.fleet.cars[c]).state = .tripped → setcarRule o q r = (r, plain .badState)) ∧
    ((r.fleet.cars[c]).state ≠ .tripped →
      setcarRule o q r = (r.withFleet (r.fleet.modCar c (configure (configOf run q))), plain .done)) := by
  rw [setcarRule_of_named o hl hc hr, if_neg (by simp [h1]), if_neg (by simp [hq])]
  exact ⟨fun ht => if_pos ht, fun ht => if_neg ht⟩

/-- What is kept of a record by a `setcar` hangs on whether the carriage was configured (R27). -/
theorem ite_configured {α : Type} (k : Carriage) (x y : α) :
    (if k.configured then x else y) = if k.state = .unconfigured then y else x := by
  by_cases h : k.state = .unconfigured <;> simp [Carriage.configured, h]

theorem setcarNoRule_badForm (hl : r.world.map.locked = false) {n : Nat} (hn : 15 < n) :
    setcarNoRule o n r = (r, plain .badForm) := by
  rw [setcarNoRule, lockFirst_unlocked hl, inTable_of_ge (by omega)]

/-- A `setcar` with configured no puts back the power-on record (R28). -/
theorem setcarNoRule_done (hl : r.world.map.locked = false) (c : CarId) :
    setcarNoRule o c.val r = (r.withFleet { r.fleet with
      cars := r.fleet.cars.set c State.reset.records.fleet.cars[c] }, plain .done) := by
  rw [setcarNoRule, lockFirst_unlocked hl, inTable_val, reset_car]
  rfl

end Setcar

section Offers

variable {s : State} {p q : Port} {f : Frame} {rest : List Frame} {code : Byte} {body : List Byte}

/-- Of all codes and bodies, only one with configured no names the command of that kind (R26, R175). -/
theorem configuredNoBody_of_commandOf (h : commandOf p code body = .setcarConfiguredNo q) :
    configuredNoBody body = true := by
  by_contra hno
  unfold commandOf at h
  rw [if_neg hno] at h
  split at h
  case h_15 => split at h <;> cases h
  all_goals cases h

/-- An offered `setcar` with configured no has a carriage number. -/
theorem Offered.decodesSetCarNo (h : Offered s (.setcarConfiguredNo p) p f rest) :
    decodeSetCarNo f.body = some (field f.body 0 1) := by
  have hno := configuredNoBody_of_commandOf h.names
  rw [configuredNoBody, Bool.and_eq_true, decide_eq_true_eq] at hno
  exact if_pos hno.1

end Offers

/-- Settles O37: the rules answer each case of carriage, run, range and state. -/
theorem setcarConfigures : Obligations.SetcarConfigures := by
  refine ⟨fun p f rest s hl => ⟨fun q h hx hq => ?_, fun h hn => ?_⟩, fun p f rest s c hl =>
    ⟨fun q run h hx hc hr h1 => ⟨fun hq => ?_, fun hq ht => ?_, fun hq ht => ?_⟩, fun h hn => ?_⟩⟩
  · refine h.answers hx (setcarRule_badForm _ hl ?_)
    rw [setCarInRange_eq_false_iff]
    exact hq
  · exact h.answers h.decodesSetCarNo (setcarNoRule_badForm _ hl hn)
  · exact h.answers hx (setcarRule_badForm _ hl (.inr (.inr (.inr hq))))
  · exact h.answers hx ((setcarRule_inRange _ hl hc hr h1 hq).1 ht)
  · simp only [← ite_configured]
    exact h.answers hx ((setcarRule_inRange _ hl hc hr h1 hq).2 ht)
  · exact h.answers (h.decodesSetCarNo.trans (congrArg some hn)) (setcarNoRule_done _ hl c)

end Sys2Proof.Machine
end

section
namespace Sys2Proof.Machine

/-! ## The mute expiry and the expiry of a GRANTED warrant (R41, R102) -/

section Expiries

variable {W : World} {F : Fleet}

/-- When a mute expiry is due (R41). -/
theorem muteDue_iff (W : World) (k : Carriage) : muteDue W k = true ↔
    (k.state = .standing ∨ k.state = .moving ∨ k.state = .tripped) ∧ k.mute = false ∧
      ∃ l, k.last = some l ∧ (k.cfg.reportInterval : Int) ≤ sinceTick W.now l.tick := by
  cases hlast : k.last <;> simp [muteDue, hlast, or_assoc, and_assoc]

/-- A mute expiry writes the flag and the cause on the carriage's record, and raises MUTE with the tick of its last
report. -/
theorem becomeMute_eq {c : CarId} {l : LastReport} (h : (F.cars[c]).last = some l) : becomeMute F c =
    (({ F with
        cars := F.cars.set c { F.cars[c] with mute := true, holds := (F.cars[c]).holds.add .mute } } : Fleet).raise
      { carriage := some c, handle := (F.cars[c]).current, value := .mute l.tick }) := by
  rw [becomeMute, h, Fleet.addHold, Fleet.modCar_modCar]
  rfl

theorem exec_muteExpiry_of_due {s : State} {c : CarId} (hr : s.resetLine = false)
    (h : muteDue s.records.world (s.records.fleet.cars[c]) = true) :
    exec (.muteExpiry c) s =
      .next ({ s with records := s.records.withFleet (becomeMute s.records.fleet c) } : State).drive :=
  congrArg Host.Outcome.next (if_neg (by rw [hr, h]; decide))

theorem expiryDue_eq_some {i : SlotId} {w : Warrant} {t : Tick} (hw : (F.slots[i]).warrant = some w)
    (hg : w.state = .granted) (ht : w.expiry = some t) (hdue : 0 ≤ sinceTick W.now t) :
    expiryDue W F i = some (w, t) := by
  simp only [expiryDue, hw, ht, hg, hdue, and_self, if_true]

/-- A due expiry raises EXPIRED, and then the warrant retires. -/
theorem expire_of_due {i : SlotId} {w : Warrant} {t : Tick} (h : expiryDue W F i = some (w, t)) : expire W F i =
    retire W (F.raise { carriage := some w.carriage, handle := some (F.handleOf i), value := .expired t }) i
      .expired := by
  rw [expire, h]

theorem exec_warrantExpiry_of_due {s : State} {i : SlotId} {x : Warrant × Tick} (hr : s.resetLine = false)
    (h : expiryDue s.records.world s.records.fleet i = some x) :
    exec (.warrantExpiry i) s = .next ({ s with
      records := s.records.withFleet (expire s.records.world s.records.fleet i) } : State).drive :=
  congrArg Host.Outcome.next (if_neg (by simp [hr, h]))

end Expiries

/-- Settles O39: the retirement at an expiry is the whole retirement of R88. -/
theorem expiriesTakeEffect : Obligations.ExpiriesTakeEffect := by
  refine ⟨?_, ?_⟩
  · intro s c l hr F k hstate hmute hlast hdue
    rw [exec_muteExpiry_of_due hr ((muteDue_iff _ _).mpr ⟨hstate, hmute, l, hlast, hdue⟩), becomeMute_eq hlast]
  · intro s i w t hr W F c hw hg ht hdue
    have hx := expiryDue_eq_some hw hg ht hdue
    refine ⟨expire W F i, ?_, exec_warrantExpiry_of_due hr hx⟩
    rw [expire_of_due hx]
    exact retire_retiredWhole .expired hw

end Sys2Proof.Machine
end

section
namespace Sys2Proof.Machine

/-! ## The braking distance (R45) -/

section BrakingDistance

variable {v t a d : Nat}

theorem ceilDiv_eq_nat_ceilDiv (n : Nat) (hd : 0 < d) : ceilDiv n d = n ⌈/⌉ d := by
  rw [ceilDiv, Nat.ceilDiv_eq_add_pred_div, Nat.add_sub_assoc hd]

/-- A quotient rounded up is the least number of divisors that reach the dividend. -/
theorem ceilDiv_isLeast (n : Nat) (hd : 0 < d) : IsLeast { k : Nat | n ≤ d * k } (ceilDiv n d) := by
  rw [ceilDiv_eq_nat_ceilDiv n hd]
  exact (gc_smul_ceilDiv hd).isLeast_l

/-- The reaction allowance at the greatest speed and reaction time of a report. -/
theorem reactionAllowance_le (hv : v ≤ 2000) (ht : t ≤ 2000) : ceilDiv (v * t) 1000 ≤ 4000 := by
  refine (ceilDiv_isLeast _ (by decide)).2 ?_
  calc v * t ≤ 2000 * 2000 := Nat.mul_le_mul hv ht
    _ = 1000 * 4000 := by norm_num

/-- The braking run at the greatest speed and the least deceleration of a report. -/
theorem brakingRun_le (hv : v ≤ 2000) (ha : 10 ≤ a) : ceilDiv (v * v) (2 * a) ≤ 200000 := by
  refine (ceilDiv_isLeast _ (by omega)).2 ?_
  calc v * v ≤ 2000 * 2000 := Nat.mul_le_mul hv hv
    _ = 2 * 10 * 200000 := by norm_num
    _ ≤ 2 * a * 200000 := by gcongr

/-- A carriage that moves has a braking run. -/
theorem brakingRun_pos (hv : 1 ≤ v) (ha : 10 ≤ a) : 1 ≤ ceilDiv (v * v) (2 * a) := by
  have hreach : v * v ≤ 2 * a * ceilDiv (v * v) (2 * a) := (ceilDiv_isLeast _ (by omega)).1
  exact Nat.pos_of_mul_pos_left ((Nat.mul_pos hv hv).trans_le hreach)

end BrakingDistance

/-- Settles O22: each term is the least of its set, and the greatest values lie in those sets. -/
theorem brakingDistanceRoundsUp : Obligations.BrakingDistanceRoundsUp := fun _ _ _ ha =>
  ⟨_, _, rfl, ceilDiv_isLeast _ (by decide), ceilDiv_isLeast _ (by omega),
    fun hv ht => ⟨reactionAllowance_le hv ht, brakingRun_le hv ha⟩, fun hv => brakingRun_pos hv ha⟩

/-! ## The braking front (R46) -/

section BrakingFront

variable {v : Nat}

/-- At standstill the braking front is the leading end. -/
theorem frontAt_standstill (cfg : CarConfig) (p : Pose) (hv : v ≤ 5) (d : Dir) :
    frontAt cfg p v (some d) = some (p.lead d) :=
  if_pos (decide_eq_true hv)

/-- Above standstill the braking front is the leading end moved on by the braking distance. -/
theorem frontAt_moving (cfg : CarConfig) (p : Pose) (hv : 5 < v) (d : Dir) : frontAt cfg p v (some d) =
    some (onward d (p.lead d) (brakingDistance v cfg.reactionTime cfg.deceleration)) :=
  if_neg (by rw [standstill, decide_eq_true_eq]; omega)

/-- A position moved on by a distance does not lie behind where it was. -/
theorem atOrBeyond_onward (d : Dir) (x : Int) (n : Nat) : atOrBeyond d (onward d x n) x = true := by
  rw [atOrBeyond_iff]
  cases d with
  | up => exact Int.le_add_of_nonneg_right (Int.natCast_nonneg n)
  | down => exact Int.sub_le_self x (Int.natCast_nonneg n)

theorem atOrBeyond_self (d : Dir) (x : Int) : atOrBeyond d x x = true := by
  rw [atOrBeyond_iff]
  cases d <;> exact le_refl x

end BrakingFront

/-- Settles O24: the front is the leading end itself or the leading end moved on. -/
theorem brakingFrontOfReport : Obligations.BrakingFrontOfReport := by
  intro cfg p v
  refine ⟨rfl, fun hv => ⟨frontAt_standstill cfg p hv .up, frontAt_standstill cfg p hv .down⟩,
    fun hv => ⟨frontAt_moving cfg p hv .up, frontAt_moving cfg p hv .down⟩, fun d f hf => ?_⟩
  rcases Nat.lt_or_ge 5 v with hv | hv
  · obtain rfl := Option.some.inj ((frontAt_moving cfg p hv d).symm.trans hf)
    exact atOrBeyond_onward d _ _
  · obtain rfl := Option.some.inj ((frontAt_standstill cfg p hv d).symm.trans hf)
    exact atOrBeyond_self d _

end Sys2Proof.Machine
end

section
namespace Sys2Proof.Machine

/-! ## What a step can do to the warrants and their carriages

Every command's effect on the fleet is a chain of changes of the kinds below, each of at most one warrant. A law of the
warrants is kept by every command when each kind of change keeps it. -/

/-- What the law of the order of R65 asks of the world and the fleet (R2, R19, R34, R65, R66, R77). -/
structure WellOrdered (W : World) (F : Fleet) : Prop where
  warrants : ∀ (i : SlotId) (w : Warrant), (F.slots[i]).warrant = some w → Ordered (runOf W F w.carriage) w
  lengths : W.map.lengthsInRange
  runs : W.map.locked = true → ∀ c : CarId, (F.cars[c]).configured = true → 0 < (runOf W F c).length
  poses : ∀ (c : CarId) (p : Pose), (F.cars[c]).pose = some p → p.lower ≤ p.upper
  book : F.Book
  unlocked : W.map.locked = false → ∀ i : SlotId, (F.slots[i]).warrant = none

/-- The current warrant of carriage `c`, when it has one, carries retire-on-stop. -/
def Fleet.MarkedCurrent (F : Fleet) (c : CarId) : Prop :=
  ∀ (i : SlotId) (w : Warrant), F.currentOf c = some (i, w) → w.retireOnStop.isSome = true

/-- No warrant changes, and no handle but that a stale one may leave a stack. A carriage becomes TRIPPED only with a
marked current warrant, becomes configured only on a run with positions, and takes a pose that ends at or above its
start. -/
structure Quiet (W : World) (F G : Fleet) : Prop where
  slots : G.slots = F.slots
  cfg : ∀ c : CarId, (G.cars[c]).cfg = (F.cars[c]).cfg
  current : ∀ c : CarId, (G.cars[c]).current = (F.cars[c]).current
  stack : F.Book → ∀ c : CarId, (G.cars[c]).stack = (F.cars[c]).stack
  pose : ∀ (c : CarId) (p : Pose), (G.cars[c]).pose = some p → p.lower ≤ p.upper ∨ (F.cars[c]).pose = some p
  configured : ∀ c : CarId, (G.cars[c]).configured = true →
    (F.cars[c]).configured = true ∨ (WellOrdered W F → 0 < (runOf W F c).length)
  tripped : ∀ c : CarId, (G.cars[c]).state = .tripped → (F.cars[c]).state = .tripped ∨ F.MarkedCurrent c

/-- What a change of a live warrant in its place keeps of it. -/
structure Edit (W : World) (F : Fleet) (w w' : Warrant) : Prop where
  role : w'.role = w.role
  mark : w.retireOnStop.isSome = true → w'.retireOnStop.isSome = true
  ceiling : w'.ceiling ≤ w.ceiling ∨ w'.ceiling ≤ (F.cars[w.carriage]).cfg.maxSpeed
  expiry : (w.expiry.isSome = true ↔ w.state = .granted) → (w'.expiry.isSome = true ↔ w'.state = .granted)
  ordered : WellOrdered W F → Ordered (runOf W F w.carriage) w → Ordered (runOf W F w.carriage) w'

/-- What a warrant that becomes GRANTED, at its issue or its resumption, is. -/
structure Fresh (W : World) (F : Fleet) (w : Warrant) : Prop where
  granted : w.state = .granted
  expiry : w.expiry.isSome = true
  ceiling : w.ceiling ≤ (F.cars[w.carriage]).cfg.maxSpeed
  ordered : WellOrdered W F → Ordered (runOf W F w.carriage) w

/-- One change of the fleet. -/
inductive Change (W : World) (F G : Fleet) : Prop where
  /-- No warrant changes. -/
  | quiet (h : Quiet W F G)
  /-- A live warrant changes in its place: it is cut, extended, marked, activated, confirmed, drawn up. -/
  | edited (i : SlotId) (w w' : Warrant) (hw : (F.slots[i]).warrant = some w)
      (slot : G.slots[i] = { F.slots[i] with warrant := some w' }) (slots : F.sameSlotsBut G i) (cars : G.cars = F.cars)
      (edit : Edit W F w w')
  /-- A warrant retires (R88). -/
  | left (i : SlotId) (w : Warrant) (r : Reason) (hw : (F.slots[i]).warrant = some w) (retired : Retired W F i w r G)
  /-- A SUSPENDED warrant becomes the current one of its carriage (R127). -/
  | resumed (i : SlotId) (w w' : Warrant) (hw : (F.slots[i]).warrant = some w)
      (slot : G.slots[i] = { F.slots[i] with warrant := some w' }) (slots : F.sameSlotsBut G i)
      (same : w'.carriage = w.carriage)
      (car : G.cars[w.carriage] = { F.cars[w.carriage] with
        current := some (F.handleOf i), stack := (F.cars[w.carriage]).stack.filter (fun x => x != F.handleOf i) })
      (cars : F.sameCarsBut G w.carriage)
      (free : F.Book → (F.cars[w.carriage]).current = none ∧ (F.cars[w.carriage]).state ≠ .tripped)
      (fresh : Fresh W F w')
  /-- A current warrant is set aside onto the stack (R119). -/
  | suspended (i : SlotId) (c : CarId) (w : Warrant) (hx : F.currentOf c = some (i, w))
      (slot : G.slots[i] = { F.slots[i] with warrant := some { w with state := .suspended, expiry := none } })
      (slots : F.sameSlotsBut G i)
      (car : G.cars[c] = { F.cars[c] with current := none, stack := (F.cars[c]).stack ++ [F.handleOf i] })
      (cars : F.sameCarsBut G c)
  /-- A free slot is issued to a new current warrant (R80). -/
  | issued (i : SlotId) (w : Warrant) (hfree : (F.slots[i]).warrant = none) (slot : (G.slots[i]).warrant = some w)
      (slots : F.sameSlotsBut G i)
      (car : G.cars[w.carriage] = { F.cars[w.carriage] with current := some (G.handleOf i) })
      (cars : F.sameCarsBut G w.carriage)
      (none : F.currentOf w.carriage = none) (calm : (F.cars[w.carriage]).state ≠ .tripped)
      (locked : W.map.locked = true) (fresh : Fresh W F w)

/-- Changes one after the other. -/
abbrev Changes (W : World) : Fleet → Fleet → Prop := Relation.ReflTransGen (Change W)

section Quiet

variable {W : World} {F G : Fleet} {c : CarId}

theorem Change.changes (h : Change W F G) : Changes W F G := .single h

theorem Quiet.changes (h : Quiet W F G) : Changes W F G := (Change.quiet h).changes

theorem Quiet.of_eq (W : World) (hc : G.cars = F.cars) (hs : G.slots = F.slots) : Quiet W F G where
  slots := hs
  cfg _ := by rw [hc]
  current _ := by rw [hc]
  stack _ _ := by rw [hc]
  pose _ _ h := .inr (by rw [← hc]; exact h)
  configured _ h := .inl (by rw [← hc]; exact h)
  tripped _ h := .inl (by rw [← hc]; exact h)

theorem Quiet.raise (W : World) (F : Fleet) (d : Detail) : Quiet W F (F.raise d) := .of_eq W rfl rfl

theorem Quiet.rezone (W : World) (F : Fleet) (c : CarId) : Quiet W F (rezone W F c) := .of_eq W (by simp) (by simp)

/-- A change of a carriage's record that the laws of the warrants do not see. -/
structure CalmCar (k k' : Carriage) : Prop where
  cfg : k'.cfg = k.cfg
  current : k'.current = k.current
  stack : k'.stack = k.stack
  pose : ∀ p, k'.pose = some p → p.lower ≤ p.upper ∨ k.pose = some p
  configured : k'.configured = true → k.configured = true
  tripped : k'.state = .tripped → k.state = .tripped

theorem CalmCar.refl (k : Carriage) : CalmCar k k := ⟨rfl, rfl, rfl, fun _ => .inr, id, id⟩

/-- A record with its state, pose and handles kept. -/
theorem CalmCar.of_same {k k' : Carriage} (hg : k'.cfg = k.cfg) (hc : k'.current = k.current) (hs : k'.stack = k.stack)
    (hp : k'.pose = k.pose) (ht : k'.state = k.state) : CalmCar k k' :=
  ⟨hg, hc, hs, fun _ h => .inr (hp ▸ h), fun h => by rw [Carriage.configured, ← ht]; exact h, fun h => ht ▸ h⟩

theorem Quiet.of_cars (hs : G.slots = F.slots) (hc : ∀ c : CarId, CalmCar F.cars[c] G.cars[c]) : Quiet W F G where
  slots := hs
  cfg c := (hc c).cfg
  current c := (hc c).current
  stack _ c := (hc c).stack
  pose c := (hc c).pose
  configured c h := .inl ((hc c).configured h)
  tripped c h := .inl ((hc c).tripped h)

theorem Quiet.modCar (W : World) (F : Fleet) (c : CarId) {f : Carriage → Carriage}
    (hf : CalmCar F.cars[c] (f F.cars[c])) :
    Quiet W F (F.modCar c f) :=
  .of_cars rfl (F.modCar_rel CalmCar.refl c f hf)

theorem Quiet.refront (W : World) (F : Fleet) (c : CarId) : Quiet W F (refront F c) :=
  .modCar W F c (.of_same rfl rfl rfl rfl rfl)

theorem Quiet.addHold (W : World) (F : Fleet) (c : CarId) (x : Cause) : Quiet W F (F.addHold c x) :=
  .modCar W F c (.of_same rfl rfl rfl rfl rfl)

theorem Quiet.removeHold (W : World) (F : Fleet) (c : CarId) (x : Cause) : Quiet W F (F.removeHold c x) :=
  .modCar W F c (.of_same rfl rfl rfl rfl rfl)

theorem Quiet.addHoldAll (W : World) (F : Fleet) (x : Cause) : Quiet W F (F.addHoldAll x) := by
  refine .of_cars (F.addHoldAll_slots x) fun c => ?_
  rw [Fleet.addHoldAll_get]
  split
  · exact .of_same rfl rfl rfl rfl rfl
  · exact .refl _

theorem Quiet.countTrip (W : World) (F : Fleet) (c : CarId) : Quiet W F (countTrip F c) := by
  obtain ⟨hc, hs, -, -⟩ := countTrip_keeps F c
  refine .of_cars hs fun d => ?_
  rw [hc]
  exact F.modCar_rel CalmCar.refl c countedCar (.of_same rfl rfl rfl rfl rfl) d

end Quiet

/-! ## The order of a warrant's positions (R65) -/

section Order

variable {r : Run} {w : Warrant}

/-- A warrant whose limit is drawn back, no further than its rear, keeps its order. -/
theorem Ordered.shortened (h : Ordered r w) {x : Int} (hr : atOrBeyond w.dir x w.rear = true)
    (hx : atOrBeyond w.dir w.limit x = true) (ceiling : Nat) (mark : Option Reason) :
    Ordered r
      { w with limit := x, confirm := keepShort w.dir x w.confirm, ceiling := ceiling, retireOnStop := mark } := by
  obtain ⟨⟨r0, r1⟩, ⟨l0, l1⟩, ht, hb, hs, hc⟩ := h
  have hkeep : ∀ y, keepShort w.dir x w.confirm = some y → w.confirm = some y ∧ beyond w.dir x y = true :=
    fun y hy => by simpa [keepShort, Option.filter_eq_some_iff] using hy
  refine ⟨⟨r0, r1⟩, ?_, ht, hr, ?_, fun y hy => ?_⟩
  · cases hd : w.dir <;> simp only [hd, atOrBeyond_iff] at hr hx <;> constructor <;> simp only [] <;> omega
  · cases hd : w.dir <;> simp only [hd, atOrBeyond_iff] at hr hx hs ⊢ <;> omega
  · obtain ⟨hy, hb⟩ := hkeep y hy
    exact ⟨hb, (hc y hy).2⟩

/-- The floor of a cut is at or beyond the rear, so the cut's limit lies between rear and limit. -/
theorem cutLimit_between (W : World) (F : Fleet) (h : Ordered r w) :
    atOrBeyond w.dir (cutLimit W F w) w.rear = true ∧ atOrBeyond w.dir w.limit (cutLimit W F w) = true := by
  have hb := h.behind
  unfold cutLimit cutFloor notBehindRear
  generalize (if (F.inRunOut w.carriage && w.state != .suspended) = true then _ else _) = stop
  cases hd : w.dir <;> simp only [hd, beyond_iff, atOrBeyond_iff] at hb ⊢ <;> split <;> split <;> omega

end Order

end Sys2Proof.Machine
end

section
namespace Sys2Proof.Machine

/-! ## The Warrant Table's operations as changes -/

section Edits

variable {W : World} {F G : Fleet} {i : SlotId} {w w' : Warrant}

theorem Edit.refl (W : World) (F : Fleet) (w : Warrant) : Edit W F w w := ⟨rfl, id, .inl le_rfl, id, fun _ h => h⟩

/-- A live warrant written anew in its slot. -/
theorem Change.of_putWarrant (hw : (F.slots[i]).warrant = some w) (hs : G.slots = (F.putWarrant i (some w')).slots)
    (hc : G.cars = F.cars) (he : Edit W F w w') : Change W F G := by
  refine .edited i w w' hw ?_ (fun j hj => ?_) hc he
  · rw [hs, Fleet.putWarrant_get, if_pos rfl]
  · rw [hs, Fleet.putWarrant_get, if_neg hj]

/-- A change of the warrant of a free slot changes nothing. -/
theorem Fleet.modWarrant_of_free (hw : (F.slots[i]).warrant = none) (f : Warrant → Warrant) : F.modWarrant i f = F := by
  have hs : (⟨(F.slots[i]).generation, (F.slots[i]).warrant.map f⟩ : Slot) = F.slots[i] := by
    rw [hw, Option.map_none, ← hw]
  show ({ F with slots := F.slots.set i ⟨(F.slots[i]).generation, (F.slots[i]).warrant.map f⟩ } : Fleet) = F
  rw [hs]
  simp

theorem Changes.modWarrant (F : Fleet) (i : SlotId) {f : Warrant → Warrant}
    (hf : ∀ w, (F.slots[i]).warrant = some w → Edit W F w (f w)) : Changes W F (F.modWarrant i f) := by
  cases hw : (F.slots[i]).warrant with
  | none => rw [Fleet.modWarrant_of_free hw]
  | some w =>
    rw [Fleet.modWarrant_of_live hw]
    exact (Change.of_putWarrant hw rfl rfl (hf w hw)).changes

/-- A changed live warrant with its entry and holdings settled. -/
theorem Changes.resettle_modWarrant (hw : (F.slots[i]).warrant = some w) {f : Warrant → Warrant}
    (he : Edit W F w (f w)) : Changes W F (resettle W (F.modWarrant i f) i) := by
  rw [Fleet.modWarrant_of_live hw]
  exact (Change.of_putWarrant hw (by simp) (by simp) he).changes

/-- A ceiling computed is at most the carriage's max speed (R75). -/
theorem fullCeiling_le (W : World) (F : Fleet) (w : Warrant) :
    fullCeiling W F w ≤ (F.cars[w.carriage]).cfg.maxSpeed := by
  rw [fullCeiling_eq]
  exact (leastCeiling_isLeast w.cls W F w.carriage _ _).2 (.inl rfl)

theorem Changes.receiling (W : World) (F : Fleet) (i : SlotId) : Changes W F (receiling W F i) := by
  unfold Machine.receiling
  split
  · rename_i w hw
    refine Changes.modWarrant F i fun v hv => ?_
    rw [hw, Option.some.injEq] at hv
    subst hv
    exact ⟨rfl, id, .inr (fullCeiling_le W F w), id, fun _ h =>
      ⟨h.rear, h.limit, h.target, h.behind, h.short, h.confirm⟩⟩
  · exact .refl

theorem Edit.shortened {x : Int} {ceiling : Nat} {mark : Option Reason}
    (hx : Ordered (runOf W F w.carriage) w →
      atOrBeyond w.dir x w.rear = true ∧ atOrBeyond w.dir w.limit x = true)
    (hc : ceiling ≤ (F.cars[w.carriage]).cfg.maxSpeed) (hm : w.retireOnStop.isSome = true → mark.isSome = true) :
    Edit W F w
      { w with limit := x, confirm := keepShort w.dir x w.confirm, ceiling := ceiling, retireOnStop := mark } :=
  ⟨rfl, hm, .inr hc, id, fun _ h => h.shortened (hx h).1 (hx h).2 ceiling mark⟩

/-- A warrant shortened to a limit between its rear and its limit. -/
theorem Changes.shorten (hw : (F.slots[i]).warrant = some w) {x : Int}
    (hx : Ordered (runOf W F w.carriage) w →
      atOrBeyond w.dir x w.rear = true ∧ atOrBeyond w.dir w.limit x = true) : Changes W F (shorten W F i x) :=
  have hs := shorten_shortened (W := W) x hw
  (Change.edited i w _ hw hs.slot hs.slots hs.cars
    (.shortened hx (fullCeiling_le W F { w with limit := x }) id)).changes

theorem Changes.of_marked {r : Reason} (hw : (F.slots[i]).warrant = some w) (h : Marked W F i w r G) : Changes W F G :=
  (Change.edited i w _ hw h.slot h.slots h.cars
    (.shortened (cutLimit_between W F) (fullCeiling_le W F { w with limit := cutLimit W F w }) fun _ => rfl)).changes

theorem Changes.markWarrant (W : World) (F : Fleet) (i : SlotId) (r : Reason) : Changes W F (markWarrant W F i r) := by
  cases hw : (F.slots[i]).warrant with
  | none =>
    have e : Machine.markWarrant W F i r = F := by simp only [Machine.markWarrant, hw]
    rw [e]
  | some w => exact .of_marked hw (markWarrant_marked r hw)

theorem Changes.unlink (hw : (F.slots[i]).warrant = some w) (r : Reason) : Changes W F (unlink W F i w r) :=
  (Change.left i w r hw (unlink_retired r)).changes

theorem Changes.retireQuietly (W : World) (F : Fleet) (i : SlotId) (r : Reason) :
    Changes W F (retireQuietly W F i r) := by
  unfold Machine.retireQuietly
  split
  · rename_i w hw
    simp only []
    split
    · exact (Changes.unlink hw r).trans (Quiet.removeHold W _ _ _).changes
    · exact .unlink hw r
  · exact .refl

end Edits

/-! ## Resumptions as changes (R124 to R128) -/

section Resumptions

variable {W : World} {F G : Fleet} {c : CarId} {i : SlotId} {w : Warrant}

/-- The warrant that a resumption makes current (R127). -/
def resumedWarrant (W : World) (F : Fleet) (w : Warrant) (res : WalkResult) : Warrant :=
  let w1 : Warrant := { w with
    limit := res.limit, rear := rearFor W F w.carriage w.dir
    confirm := match res.confirm with
      | some p => some p
      | none => keepShort w.dir res.limit (resumedConfirm F w)
    state := .granted, expiry := some (W.now + BitVec.ofNat 32 w.lifetime) }
  { w1 with ceiling := fullCeiling W F w1 }

/-- The fleet with the popped warrant current, before its entry and holdings follow (R127). -/
def promoted (W : World) (F : Fleet) (i : SlotId) (w : Warrant) (res : WalkResult) : Fleet :=
  (F.putWarrant i (some (resumedWarrant W F w res))).modCar w.carriage
    (fun k => { k with current := some (F.handleOf i), stack := k.stack.filter (fun x => x != F.handleOf i) })

theorem resumeWarrant_eq (W : World) (F : Fleet) (i : SlotId) (w : Warrant) (res : WalkResult) :
    resumeWarrant W F i w res = (refront (resettle W (promoted W F i w res) i) w.carriage).raise
      { carriage := some w.carriage, handle := some (F.handleOf i)
        value := .resumed res.blocker.isSome res.blocker } := rfl

theorem Changes.resumeWarrant (hw : (F.slots[i]).warrant = some w)
    (hfree : F.Book → (F.cars[w.carriage]).current = none ∧ (F.cars[w.carriage]).state ≠ .tripped) (res : WalkResult)
    (ho : WellOrdered W F → Ordered (runOf W F w.carriage) (resumedWarrant W F w res)) :
    Changes W F (resumeWarrant W F i w res) := by
  rw [resumeWarrant_eq]
  have hfresh : Fresh W F (resumedWarrant W F w res) := ⟨rfl, rfl, fullCeiling_le W F _, ho⟩
  have h1 : Change W F (resettle W (promoted W F i w res) i) := by
    refine .resumed i w (resumedWarrant W F w res) hw ?_ (fun j hj => ?_) rfl ?_ (fun d hd => ?_) hfree hfresh
    · rw [resettle_slots, promoted, Fleet.modCar_slots, Fleet.putWarrant_get, if_pos rfl]
    · rw [resettle_slots, promoted, Fleet.modCar_slots, Fleet.putWarrant_get, if_neg hj]
    · rw [resettle_cars, promoted, Fleet.modCar_get_self, Fleet.putWarrant_cars]
    · rw [resettle_cars, promoted, Fleet.modCar_get_other _ _ hd, Fleet.putWarrant_cars]
  exact (h1.changes.trans (Quiet.refront W _ _).changes).trans (Quiet.raise W _ _).changes

/-- A carriage without a current warrant that is not TRIPPED, whose handles `hs` are each on its stack while live: what
an attempt meets at each entry. -/
structure Poised (F : Fleet) (c : CarId) (hs : List Handle) : Prop where
  none : (F.cars[c]).current = none
  calm : (F.cars[c]).state ≠ .tripped
  stacked : ∀ x ∈ hs, F.live x ≠ Option.none → x ∈ (F.cars[c]).stack

theorem Poised.tail {x : Handle} {hs : List Handle} (h : Poised F c (x :: hs)) : Poised F c hs :=
  ⟨h.none, h.calm, fun y hy => h.stacked y (List.mem_cons_of_mem _ hy)⟩

theorem Poised.of_akin {hs : List Handle} (h : Poised F c hs) (hc : (G.cars[c]).current = (F.cars[c]).current)
    (ht : (G.cars[c]).state = (F.cars[c]).state) (hst : (G.cars[c]).stack = (F.cars[c]).stack)
    (hs' : G.slots = F.slots) :
    Poised G c hs :=
  ⟨hc.trans h.none, by rw [ht]; exact h.calm, fun x hx hl => by
    rw [hst]; exact h.stacked x hx (by rw [← live_congr hs']; exact hl)⟩

theorem retireQuietly_state (W : World) (F : Fleet) (i : SlotId) (r : Reason) (c : CarId) :
    ((retireQuietly W F i r).cars[c]).state = (F.cars[c]).state := by
  have hu : ∀ w, ((unlink W F i w r).cars[c]).state = (F.cars[c]).state := fun w => by
    by_cases hc : c = w.carriage
    · subst hc; rw [(unlink_retired r).car]
    · rw [unlink_other W F i w r hc]
  unfold retireQuietly
  split
  · simp only []
    split
    · rw [Fleet.removeHold, Fleet.modCar_rel (R := fun k k' : Carriage => k'.state = k.state)
          (fun _ => rfl) _ _ _ rfl, hu]
    · exact hu _
  · rfl

/-- A quiet retirement takes off a stack at most the handle that it retires. -/
theorem mem_stack_retireQuietly {x : Handle} {r : Reason} (hx : x ∈ (F.cars[c]).stack)
    (hl : (retireQuietly W F i r).live x ≠ none) : x ∈ ((retireQuietly W F i r).cars[c]).stack := by
  have hne : ∀ w, (F.slots[i]).warrant = some w → x ≠ F.handleOf i := by
    rintro w hw rfl
    refine hl ?_
    have hs : (retireQuietly W F i r).slots[i] = { F.slots[i] with warrant := none } :=
      (retireQuietly_spec W hw r).1
    simp only [Fleet.live, Fleet.handleOf, hs, ite_self]
  unfold retireQuietly
  split
  · rename_i w hw
    have hu : x ∈ ((unlink W F i w r).cars[c]).stack := by
      by_cases hc : c = w.carriage
      · subst hc
        rw [(unlink_retired r).car]
        exact List.mem_filter.mpr ⟨hx, by simpa using hne w hw⟩
      · rw [unlink_other W F i w r hc]; exact hx
    simp only []
    split
    · rw [(Akin.removeHold _ _ _).book.stack]; exact hu
    · exact hu
  · exact hx

theorem Poised.retireQuietly {hs : List Handle} (h : Poised F c hs) (W : World) (i : SlotId) (r : Reason) :
    Poised (retireQuietly W F i r) c hs where
  none := retireQuietly_current_none h.none
  calm := by rw [retireQuietly_state]; exact h.calm
  stacked x hx hl := mem_stack_retireQuietly
    (h.stacked x hx fun e => hl <| by
      cases hv : (Machine.retireQuietly W F i r).live x with
      | none => rfl
      | some v => rw [live_of_retireQuietly hv] at e; cases e) hl

end Resumptions

end Sys2Proof.Machine
end

section
namespace Sys2Proof.Machine

/-! ## Units within their bays (R2, R4) -/

section UnitsInBays

/-- A unit lies within its bay, and its bay within the bays laid end to end. -/
theorem unitsFrom_in_bay {bay num : Nat} {start : Int} {bs : List Bay} {u : TrackUnit}
    (h : u ∈ unitsFrom bay num start bs) :
    ∃ (k : Nat) (b : Bay), u.bay = bay + k ∧ bs[k]? = some b ∧ start + lengthOf (bs.take k) ≤ u.first ∧
      u.stop ≤ start + lengthOf (bs.take k) + b.length := by
  induction bs generalizing bay num start with
  | nil => cases h
  | cons b bs ih =>
    rcases List.mem_append.mp h with h | h
    · obtain ⟨hb, h0, -, h1⟩ := bayUnits_bounds h
      exact ⟨0, b, hb, rfl, by simpa using h0, by simpa using h1⟩
    · obtain ⟨k, b', hb, hk, h0, h1⟩ := ih h
      refine ⟨k + 1, b', by omega, hk, ?_, ?_⟩ <;> simp only [List.take_succ_cons, lengthOf_cons] <;>
        push_cast <;> omega

variable {r : Run} {u v : TrackUnit} {b : Bay} {n : Nat} {x y : Int}

/-- A unit of a run lies within its bay. -/
theorem Run.unit_in_bay (h : u ∈ r.units) (hb : r.bay u.bay = some b) :
    (r.bayStart u.bay : Int) ≤ u.first ∧ u.stop ≤ r.bayStart u.bay + b.length := by
  by_cases hd : r.defined = true
  · rw [Run.units_defined hd] at h
    obtain ⟨k, b', hk, hb', h0, h1⟩ := unitsFrom_in_bay h
    rw [Nat.zero_add] at hk
    rw [Run.bay, hk, hb', Option.some.injEq] at hb
    subst hb
    rw [hk, Run.bayStart_eq]
    exact ⟨by omega, by omega⟩
  · rw [Run.units_undefined (eq_false_of_ne_true hd)] at h
    cases h

/-- A bay of a run lies on it. -/
theorem Run.bay_on_run (hd : r.defined = true) (hb : r.bay n = some b) : r.bayStart n + b.length ≤ r.length := by
  rw [Run.length_defined hd, Run.bayStart_eq]
  have hsum : lengthOf (r.bays.take (n + 1)) = lengthOf (r.bays.take n) + b.length := by
    have hn : r.bays[n]? = some b := hb
    rw [List.take_add_one, hn]
    simp [lengthOf]
  have hle : lengthOf (r.bays.take (n + 1)) ≤ lengthOf r.bays :=
    ((List.take_sublist (n + 1) r.bays).map Bay.length).sum_le_sum fun _ _ => Nat.zero_le _
  omega

/-- A position in the stretch of a bay lies in a unit of that bay. -/
theorem Run.bay_of_unitAt (hv : r.unitAt y = some v) (hb : r.bay n = some b) (h0 : (r.bayStart n : Int) ≤ y)
    (h1 : y < r.bayStart n + b.length) : v.bay = n := by
  have hd : r.defined = true := by
    by_contra hd
    rw [Run.unitAt_off (.inl (eq_false_of_ne_true hd))] at hv
    cases hv
  rw [Run.unitAt_of_bay hd hb h0 h1, Option.some.injEq] at hv
  rw [← hv, unitInBay]
  cases b.shape <;> rfl

/-- Bays of R2's lengths have no empty unit. -/
theorem TrackMap.lengthsInRange.unit_pos {m : TrackMap} (h : m.lengthsInRange) (i : RunId)
    (hu : u ∈ (m.runs[i]).units) :
    u.first < u.stop := by
  by_cases hd : (m.runs[i]).defined = true
  · rw [Run.units_defined hd] at hu
    suffices hs : ∀ (bs : List Bay) (bay num : Nat) (start : Int), (∀ b ∈ bs, b ∈ (m.runs[i]).bays) →
        u ∈ unitsFrom bay num start bs → u.first < u.stop from hs _ _ _ _ (fun _ => id) hu
    intro bs
    induction bs with
    | nil => intro _ _ _ _ hu; cases hu
    | cons b bs ih =>
      intro bay num start hbs hu
      rcases List.mem_append.mp hu with hu | hu
      · have hl := h i b (hbs b List.mem_cons_self)
        unfold bayUnits at hu
        cases hsh : b.shape with
        | plain l =>
          rw [hsh] at hl hu
          have := cellsFrom_bounds hu
          simp only at hl
          omega
        | celled l c =>
          rw [hsh] at hl hu
          have := cellsFrom_bounds hu
          simp only at hl
          omega
      · exact ih _ _ _ (fun b hb => hbs b (List.mem_cons_of_mem _ hb)) hu
  · rw [Run.units_undefined (eq_false_of_ne_true hd)] at hu
    cases hu

end UnitsInBays

/-! ## Where a walk ends (R69, R73) -/

section WalkEnd

variable {W : World} {F : Fleet} {p : WalkPlan} {u v : TrackUnit}

/-- The units of a path are met one beyond the other. -/
theorem walkPath_pairwise (r : Run) (p : WalkPlan) :
    (walkPath r p).Pairwise (fun u v => match p.dir with
      | .up => u.stop ≤ v.first
      | .down => v.stop ≤ u.first) := by
  have hu := (r.units_pairwise.imp fun h => h.2).filter
    (fun u => beyond p.dir (u.near p.dir) p.base && atOrBeyond p.dir p.target (u.near p.dir))
  unfold walkPath inOrder
  generalize r.units.filter _ = us at hu ⊢
  cases p.dir with
  | up => exact hu
  | down => exact List.pairwise_reverse.mpr hu

theorem mem_walkPath {r : Run} (h : u ∈ walkPath r p) :
    u ∈ r.units ∧ beyond p.dir (u.near p.dir) p.base = true ∧ atOrBeyond p.dir p.target (u.near p.dir) = true := by
  have hm : u ∈ r.units.filter
      (fun u => beyond p.dir (u.near p.dir) p.base && atOrBeyond p.dir p.target (u.near p.dir)) := by
    unfold walkPath inOrder at h
    cases hd : p.dir with
    | up => simpa only [hd] using h
    | down => simpa only [hd, List.mem_reverse] using h
  obtain ⟨hm, hb⟩ := List.mem_filter.mp hm
  exact ⟨hm, by simpa only [Bool.and_eq_true] using hb⟩

/-- A walk that gains track ends on the run, beyond its base, not beyond its target, and at or beyond every unit that it
passed. -/
structure WalkEnd (W : World) (F : Fleet) (p : WalkPlan) : Prop where
  onRun : 0 ≤ (walk W F p).limit ∧ (walk W F p).limit ≤ (runOf W F p.car).last
  beyondBase : beyond p.dir (walk W F p).limit p.base = true
  inTarget : atOrBeyond p.dir p.target (walk W F p).limit = true
  passed : ∀ u ∈ (walk W F p).passed, atOrBeyond p.dir (walk W F p).limit (u.near p.dir) = true

theorem mem_path_of_passed (h : u ∈ (walk W F p).passed) : u ∈ walkPath (runOf W F p.car) p :=
  (grantWalkPassesChecks W F p).1.subset (List.mem_reverse.mpr h)

theorem walk_end (hl : W.map.lengthsInRange) (ht : 0 ≤ p.target ∧ p.target ≤ (runOf W F p.car).last)
    (hg : (walk W F p).gains p = true) : WalkEnd W F p := by
  obtain ⟨hpre, hdone, hpart, hstop, -⟩ := grantWalkPassesChecks W F p
  have hgain : beyond p.dir (walk W F p).limit p.base = true := hg
  cases hb : (walk W F p).blocker with
  | none =>
    obtain ⟨-, hlim⟩ := hdone hb
    refine ⟨by rw [hlim]; exact ht, hgain, ?_, fun u hu => ?_⟩
    · rw [hlim]; cases p.dir <;> simp [atOrBeyond_iff]
    · rw [hlim]; exact (mem_walkPath (mem_path_of_passed hu)).2.2
  | some k =>
    have hlim := hpart (by rw [hb]; exact Option.some_ne_none k)
    cases hpass : (walk W F p).passed with
    | nil =>
      rw [hpass] at hlim
      rw [hlim] at hgain
      revert hgain
      cases p.dir <;> simp [beyond_iff]
    | cons u us =>
      rw [hpass] at hlim
      have hlim : (walk W F p).limit = u.far p.dir := hlim
      obtain ⟨v, -, hv, -⟩ := hstop k hb
      obtain ⟨rest, hpath⟩ := hpre
      have hu : u ∈ (walk W F p).passed := by rw [hpass]; exact List.mem_cons_self
      obtain ⟨huu, hub, -⟩ := mem_walkPath (mem_path_of_passed hu)
      have hpos := hl.unit_pos _ huu
      have hon := Run.unit_bounds huu
      have hpw := walkPath_pairwise (runOf W F p.car) p
      have hpath' : walkPath (runOf W F p.car) p = us.reverse ++ [u] ++ rest := by
        rw [show walkPath (runOf W F p.car) p = (walk W F p).passed.reverse ++ rest from hpath.symm,
          hpass, List.reverse_cons]
      have hvr : v ∈ rest := by
        have hv' : (walkPath (runOf W F p.car) p)[(walk W F p).passed.length]? = some v := hv
        rw [hpath', List.getElem?_append_right (by simp [hpass])] at hv'
        exact List.mem_of_getElem? hv'
      obtain ⟨-, -, hvt⟩ := mem_walkPath (p := p) (u := v) (r := runOf W F p.car)
        (by rw [hpath']; exact List.mem_append_right _ hvr)
      have hvu : v ∈ (runOf W F p.car).units :=
        (mem_walkPath (p := p) (by rw [hpath']; exact List.mem_append_right _ hvr)).1
      have hvpos := hl.unit_pos _ hvu
      rw [hpath'] at hpw
      obtain ⟨hdoneW, -, hcross⟩ := List.pairwise_append.mp hpw
      obtain ⟨-, -, hlast⟩ := List.pairwise_append.mp hdoneW
      have huv := hcross u (by simp) v hvr
      have hlen : ((runOf W F p.car).last : Int) = (runOf W F p.car).length - 1 := rfl
      refine ⟨?_, hgain, ?_, fun x hx => ?_⟩
      · rw [hlim]
        cases hd : p.dir <;> simp only [TrackUnit.far] <;> omega
      · rw [hlim]
        cases hd : p.dir <;> simp only [hd, TrackUnit.far, TrackUnit.near, atOrBeyond_iff] at hvt huv ⊢ <;> omega
      · have hxpos := hl.unit_pos _ (mem_walkPath (mem_path_of_passed hx)).1
        rw [hpass] at hx
        rw [hlim]
        rcases List.mem_cons.mp hx with rfl | hx
        · cases hd : p.dir <;> simp only [TrackUnit.far, TrackUnit.near, atOrBeyond_iff] <;> omega
        · have hxu := hlast x (List.mem_reverse.mpr hx) u (by simp)
          cases hd : p.dir <;> simp only [hd, TrackUnit.far, TrackUnit.near, atOrBeyond_iff] at hxu ⊢ <;> omega

/-! ## The confirm point that a walk records (R72) -/

/-- A confirm point that a walk records stands short of a bay that the walk passed a unit of, and that neither the
present extent touches nor the warrant's own span. -/
structure ConfirmBay (W : World) (F : Fleet) (p : WalkPlan) (x : Int) (u : TrackUnit) (b : Bay) : Prop where
  passed : u ∈ (walk W F p).passed
  bay : (runOf W F p.car).bay u.bay = some b
  point : x = confirmShortOf (runOf W F p.car) p.dir u.bay b
  extent : ∀ v ∈ occupied W F p.car, v.bay ≠ u.bay
  span : ∀ v ∈ (runOf W F p.car).units, v.bay = u.bay → inSpan p.ownSpan v.num = false

theorem walk_confirm {x : Int} (hx : (walk W F p).confirm = some x) : p.met = none ∧ ∃ u b, ConfirmBay W F p x u b := by
  obtain ⟨-, -, -, -, -, -, hc⟩ := grantWalkPassesChecks W F p
  rw [hx] at hc
  split at hc
  · rename_i hm
    refine ⟨hm, ?_⟩
    obtain ⟨n, hn, hc⟩ := Option.bind_eq_some_iff.mp hc.symm
    obtain ⟨u, hu, rfl⟩ := Option.map_eq_some_iff.mp hn
    obtain ⟨b, hb, hc⟩ := Option.map_eq_some_iff.mp hc
    have hmeets := List.find?_some hu
    have hbay : (runOf W F p.car).bay u.bay = some b := hb
    simp only [Bool.and_eq_true, hbay, Option.any_some, Bool.not_eq_true', List.any_eq_false, beq_iff_eq] at hmeets
    refine ⟨u, b, List.mem_reverse.mp (List.mem_of_find?_eq_some hu), hb, ?_, hmeets.2.1.2, fun v hv hvu => ?_⟩
    · rw [← hc]
      unfold confirmShortOf
      cases p.dir <;> rfl
    · have := hmeets.2.2 v hv
      simpa [hvu] using this
  · cases hc

/-- A recorded confirm point lies short of the walk's limit and no further off the run than the position beside it. -/
theorem ConfirmBay.short {x : Int} {b : Bay} (h : ConfirmBay W F p x u b) (hl : W.map.lengthsInRange)
    (he : WalkEnd W F p) :
    beyond p.dir (walk W F p).limit x = true ∧ -1 ≤ x ∧ x ≤ (runOf W F p.car).length := by
  obtain ⟨hu, -⟩ := mem_walkPath (mem_path_of_passed h.passed)
  obtain ⟨h0, h1⟩ := Run.unit_in_bay hu h.bay
  have hpos := hl.unit_pos _ hu
  have hb := Run.unit_bounds hu
  have hd : (runOf W F p.car).defined = true := by
    by_contra hd
    rw [Run.units_undefined (eq_false_of_ne_true hd)] at hu
    cases hu
  have hon := Run.bay_on_run hd h.bay
  have hp := he.passed u h.passed
  have hx := h.point
  cases hdir : p.dir <;> simp only [hdir, confirmShortOf, TrackUnit.near, atOrBeyond_iff] at hx hp <;>
    simp only [beyond_iff] <;> omega

/-- A recorded confirm point lies at or beyond a position behind the walk's path that lies in another bay. -/
theorem ConfirmBay.ahead_of {x y : Int} {b : Bay} (h : ConfirmBay W F p x u b) (hl : W.map.lengthsInRange)
    (hv : (runOf W F p.car).unitAt y = some v) (hvb : v.bay ≠ u.bay) (hy : atOrBeyond p.dir p.base y = true) :
    atOrBeyond p.dir x y = true := by
  obtain ⟨hu, hub, -⟩ := mem_walkPath (mem_path_of_passed h.passed)
  obtain ⟨h0, h1⟩ := Run.unit_in_bay hu h.bay
  have hpos := hl.unit_pos _ hu
  have hno : ¬((runOf W F p.car).bayStart u.bay ≤ y ∧ y < (runOf W F p.car).bayStart u.bay + b.length) := fun hin =>
    hvb (Run.bay_of_unitAt hv h.bay hin.1 hin.2)
  have hx := h.point
  cases hdir : p.dir <;> simp only [hdir, confirmShortOf, TrackUnit.near, atOrBeyond_iff, beyond_iff]
    at hx hy hub ⊢ <;> omega

end WalkEnd

end Sys2Proof.Machine
end

section
namespace Sys2Proof.Machine

/-! ## The positions of a granted warrant (R65, R69, R72) -/

section Granted

variable {W : World} {F : Fleet} {c : CarId} {d : Dir} {p : WalkPlan} {w : Warrant}

/-- The rear is on the run, at or behind the trailing end brought onto it (R65). -/
theorem rearFor_spec (hpos : 0 < (runOf W F c).length) (d : Dir) :
    (0 ≤ rearFor W F c d ∧ rearFor W F c d ≤ (runOf W F c).last) ∧
      atOrBeyond d ((runOf W F c).clamp ((F.cars[c]).trail d)) (rearFor W F c d) = true := by
  have hlast : (runOf W F c).last = (runOf W F c).length - 1 := rfl
  have hclamp : 0 ≤ (runOf W F c).clamp ((F.cars[c]).trail d) ∧
      (runOf W F c).clamp ((F.cars[c]).trail d) < (runOf W F c).length := by
    unfold Run.clamp; omega
  obtain ⟨u, hu⟩ := Run.exists_unitAt hclamp.1 hclamp.2
  obtain ⟨hm, h0, h1⟩ := Run.unitAt_some hu
  have hb := Run.unit_bounds hm
  have hr : rearFor W F c d = u.near d := by
    have hn : (runOf W F c).unitNear ((F.cars[c]).trail d) = some u := hu
    rw [rearFor, hn]
  rw [hr]
  cases d <;> simp only [TrackUnit.near, atOrBeyond_iff] at hclamp h0 h1 ⊢ <;> omega

/-- The trailing end of an extent is not beyond its leading end. -/
theorem trail_behind_lead (hp : ∀ p, (F.cars[c]).pose = some p → p.lower ≤ p.upper) (d : Dir) :
    atOrBeyond d ((F.cars[c]).lead d) ((F.cars[c]).trail d) = true := by
  unfold Carriage.lead Carriage.trail
  cases hq : (F.cars[c]).pose with
  | none => cases d <;> simp [atOrBeyond_iff]
  | some q =>
    have := hp q hq
    cases d <;> simpa only [atOrBeyond_iff, Pose.lead, Pose.trail] using this

/-- The unit of a leading end that lies on the run is occupied. -/
theorem unitAt_lead_occupied {q : Pose} {v : TrackUnit} (hq : (F.cars[c]).pose = some q) (hle : q.lower ≤ q.upper)
    (h0 : 0 ≤ q.lead d) (h1 : q.lead d ≤ (runOf W F c).last) (hv : (runOf W F c).unitAt (q.lead d) = some v) :
    v ∈ occupied W F c := by
  obtain ⟨hm, hv0, hv1⟩ := Run.unitAt_some hv
  have he : presentExtent W F c = some (max q.lower 0, min q.upper (runOf W F c).last) := by
    simp only [presentExtent, hq]
    rw [if_pos]
    cases d <;> simp only [Pose.lead] at h0 h1 <;> omega
  have ho : occupied W F c = (runOf W F c).touched (max q.lower 0) (min q.upper (runOf W F c).last) := by
    simp only [occupied, he]
  rw [ho]
  refine List.mem_filter.mpr ⟨hm, decide_eq_true ?_⟩
  cases d <;> simp only [Pose.lead] at h0 h1 hv0 hv1 <;> omega

/-- A confirm point that a walk from the leading end records lies, when it is on the run, at or beyond the trailing end
brought onto the run. -/
theorem ConfirmBay.ahead_of_trail {x : Int} {u : TrackUnit} {b : Bay} (h : ConfirmBay W F p x u b)
    (hl : W.map.lengthsInRange) (hp : ∀ q, (F.cars[p.car]).pose = some q → q.lower ≤ q.upper)
    (hbase : p.base = (F.cars[p.car]).lead p.dir) (hx0 : 0 ≤ x) (hx1 : x ≤ (runOf W F p.car).last) :
    atOrBeyond p.dir x ((runOf W F p.car).clamp ((F.cars[p.car]).trail p.dir)) = true := by
  obtain ⟨hu, hub, -⟩ := mem_walkPath (mem_path_of_passed h.passed)
  have hpos := hl.unit_pos _ hu
  have hb := Run.unit_bounds hu
  have hlast : (runOf W F p.car).last = (runOf W F p.car).length - 1 := rfl
  have htrail := trail_behind_lead (F := F) (c := p.car) hp p.dir
  have hreach : atOrBeyond p.dir x ((F.cars[p.car]).lead p.dir) = true ∨
      (p.dir = .up ∧ (F.cars[p.car]).lead p.dir ≤ 0) := by
    rw [hbase] at hub
    cases hq : (F.cars[p.car]).pose with
    | none =>
      have h0 : (F.cars[p.car]).lead p.dir = 0 := by rw [Carriage.lead, hq]
      cases hd : p.dir with
      | up => exact .inr ⟨rfl, by rw [← hd, h0]⟩
      | down =>
        rw [h0, hd] at hub
        simp only [beyond_iff, TrackUnit.near] at hub
        omega
    | some q =>
      have hlead : (F.cars[p.car]).lead p.dir = q.lead p.dir := lead_of_pose hq _
      rw [hlead] at hub ⊢
      by_cases hon : 0 ≤ q.lead p.dir ∧ q.lead p.dir ≤ (runOf W F p.car).last
      · obtain ⟨v, hv⟩ := Run.exists_unitAt (r := runOf W F p.car) hon.1 (by omega)
        refine .inl (h.ahead_of hl hv (h.extent v (unitAt_lead_occupied hq (hp q hq) hon.1 hon.2 hv)) ?_)
        rw [hbase, hlead]
        cases p.dir <;> simp [atOrBeyond_iff]
      · cases hd : p.dir with
        | up =>
          simp only [hd, beyond_iff, TrackUnit.near] at hub hon
          exact .inr ⟨rfl, by omega⟩
        | down =>
          simp only [hd, beyond_iff, TrackUnit.near, atOrBeyond_iff] at hub hon ⊢
          exact .inl (by omega)
  unfold Run.clamp
  rcases hreach with h | ⟨hd, h⟩
  · cases hd : p.dir <;> simp only [hd, atOrBeyond_iff] at h htrail ⊢ <;> omega
  · simp only [hd, atOrBeyond_iff] at h htrail ⊢
    omega

/-- A warrant granted by a walk from the leading end stands in order: an `ask`'s, or a resumption's (R65). -/
theorem ordered_of_walk (hm : W.map.lengthsInRange) (hposes : ∀ x, (F.cars[p.car]).pose = some x → x.lower ≤ x.upper)
    (hpos : 0 < (runOf W F p.car).length)
    (hbase : p.base = (F.cars[p.car]).lead p.dir) (ht : 0 ≤ p.target ∧ p.target ≤ (runOf W F p.car).last)
    (hg : (walk W F p).gains p = true) (hdir : w.dir = p.dir) (htarget : w.target = p.target)
    (hlimit : w.limit = (walk W F p).limit) (hrear : w.rear = rearFor W F p.car p.dir)
    (hconfirm : ∀ x, w.confirm = some x → (walk W F p).confirm = some x ∨
      (beyond p.dir (walk W F p).limit x = true ∧ beyond p.dir x p.base = true ∧
        -1 ≤ x ∧ x ≤ (runOf W F p.car).length)) :
    Ordered (runOf W F p.car) w := by
  have he := walk_end hm ht hg
  obtain ⟨hron, hrb⟩ := rearFor_spec hpos p.dir
  have htrail := trail_behind_lead (F := F) (c := p.car) hposes p.dir
  have hbeyond := he.beyondBase
  have hon := he.onRun
  rw [hbase] at hbeyond
  have behind : ∀ y, 0 ≤ y → y ≤ (runOf W F p.car).last → beyond p.dir y ((F.cars[p.car]).lead p.dir) = true →
      atOrBeyond p.dir y (rearFor W F p.car p.dir) = true := by
    intro y h0 h1 hy
    unfold Run.clamp at hrb
    cases hd : p.dir <;> simp only [hd, atOrBeyond_iff, beyond_iff] at hy htrail hrb ⊢ <;> omega
  refine ⟨by rw [hrear]; exact hron, by rw [hlimit]; exact hon, by rw [htarget]; exact ht, ?_, ?_, fun x hx => ?_⟩
  · rw [hdir, hlimit, hrear]
    exact behind _ hon.1 hon.2 hbeyond
  · rw [hdir, htarget, hlimit]
    exact he.inTarget
  · rw [hdir, hlimit, hrear]
    rcases hconfirm x hx with hx | ⟨h1, h2, h3, h4⟩
    · obtain ⟨-, u, b, hc⟩ := walk_confirm hx
      obtain ⟨h1, h2, h3⟩ := hc.short hm he
      refine ⟨h1, h2, h3, fun h => ?_⟩
      have hax := hc.ahead_of_trail hm hposes hbase h.1 h.2
      cases hd : p.dir <;> simp only [hd, atOrBeyond_iff] at hax hrb ⊢ <;> omega
    · exact ⟨h1, h3, h4, fun h => behind x h.1 h.2 (hbase ▸ h2)⟩

/-- A resumed warrant stands in order. -/
theorem resumedWarrant_ordered {i : SlotId} (ho : WellOrdered W F) (hw : (F.slots[i]).warrant = some w)
    (hg : (walk W F (resumePlan W F i w)).gains (resumePlan W F i w) = true) :
    Ordered (runOf W F w.carriage) (resumedWarrant W F w (walk W F (resumePlan W F i w))) := by
  have hold := ho.warrants i w hw
  have hlast : (runOf W F w.carriage).last = (runOf W F w.carriage).length - 1 := rfl
  have hrear := hold.rear
  refine ordered_of_walk (p := resumePlan W F i w) ho.lengths (ho.poses w.carriage) ?_
    rfl hold.target hg rfl rfl rfl rfl fun x hx => ?_
  · show 0 < (runOf W F w.carriage).length
    omega
  · simp only [resumedWarrant] at hx
    cases hc : (walk W F (resumePlan W F i w)).confirm with
    | some y =>
      rw [hc] at hx
      exact .inl hx
    | none =>
      rw [hc] at hx
      have hx : keepShort w.dir (walk W F (resumePlan W F i w)).limit (resumedConfirm F w) = some x := hx
      obtain ⟨hx, hb⟩ := Option.filter_eq_some_iff.mp hx
      obtain ⟨hx, hlead⟩ := Option.filter_eq_some_iff.mp hx
      obtain ⟨-, h1, h2, -⟩ := hold.confirm x hx
      exact .inr ⟨hb, hlead, h1, h2⟩

/-- An extended warrant stands in order: its walk starts at its limit, and meets no check bay of its own span (R83). -/
theorem extended_ordered {i : SlotId} {target : Int} (ho : WellOrdered W F) (hw : (F.slots[i]).warrant = some w)
    (ht : target ≤ (runOf W F w.carriage).last) (ht0 : 0 ≤ target)
    (hg : (walk W F (extendPlan W F i w target)).gains (extendPlan W F i w target) = true) :
    Ordered (runOf W F w.carriage) (extended W F w target (walk W F (extendPlan W F i w target))) := by
  have hold := ho.warrants i w hw
  have he := walk_end (p := extendPlan W F i w target) ho.lengths ⟨ht0, ht⟩ hg
  have hlast : (runOf W F w.carriage).last = (runOf W F w.carriage).length - 1 := rfl
  have hbehind := hold.behind
  have hbase : beyond w.dir (walk W F (extendPlan W F i w target)).limit w.limit = true := he.beyondBase
  refine ⟨hold.rear, he.onRun, ⟨ht0, ht⟩, ?_, he.inTarget, fun x hx => ?_⟩
  · show atOrBeyond w.dir (walk W F (extendPlan W F i w target)).limit w.rear = true
    cases hd : w.dir <;> simp only [hd, atOrBeyond_iff, beyond_iff] at hbase hbehind ⊢ <;> omega
  · show beyond w.dir (walk W F (extendPlan W F i w target)).limit x = true ∧
        -1 ≤ x ∧ x ≤ (runOf W F w.carriage).length ∧
      (0 ≤ x ∧ x ≤ (runOf W F w.carriage).last → atOrBeyond w.dir x w.rear = true)
    simp only [extended] at hx
    cases hc : w.confirm with
    | some y =>
      rw [hc, Option.some.injEq] at hx
      subst hx
      obtain ⟨h1, h2⟩ := hold.confirm y hc
      refine ⟨?_, h2⟩
      cases hd : w.dir <;> simp only [hd, beyond_iff] at hbase h1 ⊢ <;> omega
    | none =>
      rw [hc] at hx
      obtain ⟨-, u, b, hcb⟩ := walk_confirm hx
      obtain ⟨h1, h2, h3⟩ := hcb.short ho.lengths he
      refine ⟨h1, h2, h3, fun _ => ?_⟩
      obtain ⟨v, hv⟩ := Run.exists_unitAt (r := runOf W F w.carriage) hold.limit.1 (by have := hold.limit.2; omega)
      have hvb : v.bay ≠ u.bay := by
        intro hvu
        have hspan := hcb.span v (Run.unitAt_some hv).1 hvu
        have hnum : (runOf W F w.carriage).numAt w.limit = v.num := by rw [Run.numAt, hv]
        simp only [extendPlan, inSpan, entryOf, decide_eq_false_iff_not, hnum] at hspan
        omega
      have hx := hcb.ahead_of (y := w.limit) ho.lengths hv hvb (by
        show atOrBeyond w.dir w.limit w.limit = true
        cases w.dir <;> simp [atOrBeyond_iff])
      have hx : atOrBeyond w.dir x w.limit = true := hx
      cases hd : w.dir <;> simp only [hd, atOrBeyond_iff] at hx hbehind ⊢ <;> omega

end Granted

end Sys2Proof.Machine
end

section
namespace Sys2Proof.Machine

/-! ## Attempts and retirements as changes (R88, R124 to R128, R150) -/

section Attempts

variable {W : World} {F G : Fleet} {c : CarId} {i : SlotId} {w : Warrant}

theorem Changes.raise (h : Changes W F G) (d : Detail) : Changes W F (G.raise d) := h.trans (Quiet.raise W G d).changes

/-- A handle that names no live warrant is on no stack of a fleet whose book is in order. -/
theorem Quiet.dropStale (W : World) {x : Handle} (hx : F.live x = none) :
    Quiet W F (F.modCar c (fun k => { k with stack := k.stack.filter (fun y => y != x) })) := by
  have hcars := F.modCar_rel (R := fun k k' => k'.cfg = k.cfg ∧ k'.current = k.current ∧
      k'.pose = k.pose ∧ k'.state = k.state)
    (fun _ => ⟨rfl, rfl, rfl, rfl⟩) c (fun k => { k with stack := k.stack.filter (fun y => y != x) })
    ⟨rfl, rfl, rfl, rfl⟩
  refine ⟨rfl, fun d => (hcars d).1, fun d => (hcars d).2.1, fun hb d => ?_, fun d p h => .inr ?_, fun d h => .inl ?_,
    fun d h => .inl ?_⟩
  · rw [Fleet.modCar_get]
    split
    · rename_i e
      subst e
      refine List.filter_eq_self.mpr fun y hy => bne_iff_ne.mpr fun e => ?_
      obtain ⟨v, hv, -⟩ := hb.stacked d y hy
      rw [e, hx] at hv
      cases hv
    · rfl
  · rw [← (hcars d).2.2.1]; exact h
  · rw [Carriage.configured, ← (hcars d).2.2.2]; exact h
  · rw [← (hcars d).2.2.2]; exact h

/-- The entries of a stack taken in turn. -/
theorem Changes.attemptFrom (hs : List Handle) (h : Poised F c hs) : Changes W F (attemptFrom W c hs F) := by
  induction hs generalizing F with
  | nil => exact (Quiet.refront W F c).changes
  | cons x hs ih =>
    have retired : ∀ r : Reason, Changes W F
        (Machine.attemptFrom W c hs (Machine.retireQuietly W F x.slot r)) := fun r =>
      (Changes.retireQuietly W F x.slot r).trans (ih (h.tail.retireQuietly W x.slot r))
    have failed : ∀ (r : Reason) (b : Option Blocker), Changes W F
        (Machine.attemptFrom W c hs (raiseResumeFail (Machine.retireQuietly W F x.slot r) c x r b)) := fun r b =>
      ((Changes.retireQuietly W F x.slot r).raise _).trans
        (ih ((h.tail.retireQuietly W x.slot r).of_akin rfl rfl rfl rfl))
    unfold Machine.attemptFrom
    split
    · rename_i hx
      refine (Quiet.dropStale W hx).changes.trans (ih ?_)
      refine ⟨?_, ?_, fun y hy hl => ?_⟩
      · rw [Fleet.modCar_get_self]; exact h.none
      · rw [Fleet.modCar_get_self]; exact h.calm
      · have hl : F.live y ≠ none := hl
        rw [Fleet.modCar_get_self]
        refine List.mem_filter.mpr ⟨h.stacked y (List.mem_cons_of_mem _ hy) hl, ?_⟩
        simpa using fun e : y = x => hl (e ▸ hx)
    · rename_i w hw
      split
      · exact retired _
      · split
        · exact failed _ _
        · simp only []
          split
          · rename_i hg
            have hslot := Fleet.slot_of_live hw
            refine .resumeWarrant hslot (fun hb => ?_) _ fun ho => resumedWarrant_ordered ho hslot hg
            obtain ⟨v, hv, hc, -⟩ := hb.stacked c x
              (h.stacked x List.mem_cons_self (by rw [hw]; exact Option.some_ne_none w))
            rw [hw, Option.some.injEq] at hv
            subst hv
            subst hc
            exact ⟨h.none, h.calm⟩
          · exact failed _ _

theorem Changes.attempt (W : World) (F : Fleet) (c : CarId) : Changes W F (attempt W F c) := by
  unfold Machine.attempt
  split
  · rename_i hm
    simp only [mayAttempt, Bool.and_eq_true, Option.isNone_iff_eq_none, bne_iff_ne] at hm
    exact .attemptFrom _ ⟨hm.1.1.1, hm.1.2, fun x hx _ => List.mem_reverse.mp hx⟩
  · exact .refl

theorem Changes.releaseHold (W : World) (F : Fleet) (c : CarId) (x : Cause) : Changes W F (releaseHold W F c x) := by
  have hr := (Quiet.removeHold W F c x).changes
  unfold Machine.releaseHold
  simp only []
  split
  · exact hr.trans (Changes.attempt W _ c)
  · exact hr

/-- A retirement whole, from any fleet that its first steps leave by changes. -/
theorem Changes.retire_of_unlink {P : Fleet} {r : Reason} (hw : (F.slots[i]).warrant = some w)
    (hu : Changes W P (Machine.unlink W F i w r)) : Changes W P (retire W F i r) := by
  unfold Machine.retire
  rw [hw]
  simp only []
  split <;> split
  · exact (hu.trans (Changes.attempt W _ _)).trans (Changes.releaseHold W _ _ _)
  · exact hu.trans (Changes.attempt W _ _)
  · exact hu.trans (Changes.releaseHold W _ _ _)
  · exact hu

theorem Changes.retire (W : World) (F : Fleet) (i : SlotId) (r : Reason) : Changes W F (retire W F i r) := by
  cases hw : (F.slots[i]).warrant with
  | none =>
    have e : Machine.retire W F i r = F := by simp only [Machine.retire, hw]
    rw [e]
  | some w => exact .retire_of_unlink hw (.unlink hw r)

end Attempts

/-! ## Trips as changes (R155 to R158) -/

section Trips

variable {W : World} {F G : Fleet} {c : CarId} {i : SlotId} {w : Warrant}

theorem Changes.markTop (W : World) (F : Fleet) (c : CarId) (r : Reason) : Changes W F (markTop W F c r) := by
  unfold Machine.markTop
  split
  · split
    · exact .markWarrant W F _ r
    · exact .refl
  · exact .refl

theorem Changes.stopCurrent (W : World) (F : Fleet) (c : CarId) (v : Nat) : Changes W F (stopCurrent W F c v) := by
  unfold Machine.stopCurrent
  split
  · split
    · exact .retire W F _ _
    · exact .markWarrant W F _ _
  · exact .refl

/-- The fleet with the current warrant of carriage `c` marked and no other change. -/
def Fleet.markedFirst (F : Fleet) (c : CarId) : Fleet :=
  match F.currentOf c with
  | some (i, _) => F.modWarrant i (fun w => { w with retireOnStop := some (w.retireOnStop.getD .tripped) })
  | none => F

/-- A carriage's current warrant is live in its slot, under the handle that the carriage holds. -/
theorem Fleet.slot_of_currentOf (hx : F.currentOf c = some (i, w)) :
    (F.slots[i]).warrant = some w ∧ (F.cars[c]).current = some (F.handleOf i) := by
  unfold Fleet.currentOf at hx
  split at hx
  · rename_i h hh
    obtain ⟨v, hv, e⟩ := Option.map_eq_some_iff.mp hx
    obtain ⟨rfl, rfl⟩ := Prod.mk.inj e
    exact ⟨Fleet.slot_of_live hv, by rw [hh, Fleet.handleOf_slot_of_live hv]⟩
  · cases hx

theorem markedFirst_of_current (hx : F.currentOf c = some (i, w)) : F.markedFirst c =
    F.putWarrant i (some { w with retireOnStop := some (w.retireOnStop.getD .tripped) }) := by
  simp only [Fleet.markedFirst, hx, Fleet.modWarrant_of_live (Fleet.slot_of_currentOf hx).1]

theorem markedFirst_of_none (hx : F.currentOf c = none) : F.markedFirst c = F := by simp only [Fleet.markedFirst, hx]

theorem markedFirst_cars (F : Fleet) (c : CarId) : (F.markedFirst c).cars = F.cars := by
  unfold Fleet.markedFirst
  split <;> rfl

theorem Edit.marked (W : World) (F : Fleet) (w : Warrant) (r : Reason) :
    Edit W F w { w with retireOnStop := some r } :=
  ⟨rfl, fun _ => rfl, .inl le_rfl, id, fun _ h => ⟨h.rear, h.limit, h.target, h.behind, h.short, h.confirm⟩⟩

theorem Changes.markedFirst (W : World) (F : Fleet) (c : CarId) : Changes W F (F.markedFirst c) := by
  unfold Fleet.markedFirst
  split
  · exact Changes.modWarrant F _ fun w _ => .marked W F w _
  · exact .refl

theorem markedFirst_markedCurrent (F : Fleet) (c : CarId) : (F.markedFirst c).MarkedCurrent c := by
  intro j u hu
  cases hx : F.currentOf c with
  | none =>
    rw [markedFirst_of_none hx, hx] at hu
    cases hu
  | some y =>
    obtain ⟨i, w⟩ := y
    obtain ⟨hw, hcur⟩ := Fleet.slot_of_currentOf hx
    obtain ⟨huw, hucur⟩ := Fleet.slot_of_currentOf hu
    rw [markedFirst_cars, hcur, Option.some.injEq] at hucur
    have hij : i = j := congrArg Handle.slot hucur
    subst hij
    rw [markedFirst_of_current hx, Fleet.putWarrant_get, if_pos rfl, Option.some.injEq] at huw
    rw [← huw]
    rfl

/-- The stop of the current warrant at a trip, from the fleet in which it is marked already: what the trip does to the
carriage's record in between does not touch the warrant. -/
theorem Changes.stopCurrent_of_marked (W : World) (F : Fleet) (c : CarId) (v : Nat) :
    Changes W (F.markedFirst c) (Machine.stopCurrent W F c v) := by
  cases hx : F.currentOf c with
  | none =>
    rw [markedFirst_of_none hx]
    exact .stopCurrent W F c v
  | some y =>
    obtain ⟨i, w⟩ := y
    obtain ⟨hw, -⟩ := Fleet.slot_of_currentOf hx
    rw [markedFirst_of_current hx]
    let u : Warrant := { w with retireOnStop := some (w.retireOnStop.getD .tripped) }
    have hu : ((F.putWarrant i (some u)).slots[i]).warrant = some u := by rw [Fleet.putWarrant_get, if_pos rfl]
    have hslots : ∀ G, F.sameSlotsBut G i → (F.putWarrant i (some u)).sameSlotsBut G i := fun G hG j hj => by
      rw [Fleet.putWarrant_get, if_neg hj, hG j hj]
    simp only [Machine.stopCurrent, hx]
    split
    · refine .retire_of_unlink hw (Change.changes (.left i u (w.retireOnStop.getD .tripped) hu ?_))
      have hr := unlink_retired (W := W) (F := F) (i := i) (w := w) (w.retireOnStop.getD .tripped)
      have hreb : Rebased W (F.putWarrant i (some u)) w.carriage i F :=
        ⟨rfl, (F.putWarrant_generation i i _).symm, fun j hj => by rw [Fleet.putWarrant_get, if_neg hj], fun _ => rfl,
          fun _ _ => rfl, rfl, .of_same rfl rfl rfl rfl⟩
      obtain ⟨h1, h2, h3, h4, h5, h6, h7, h8⟩ := hr.rebase hreb
      exact ⟨h1, h2, h3, h4, h5, h6, h7, h8⟩
    · obtain ⟨h1, h2, h3, -⟩ := markWarrant_marked (W := W) .tripped hw
      refine Change.changes (.edited i u _ hu ?_ (hslots _ h2) h3
        (.shortened (x := cutLimit W F w) (fun ho => ?_) (mark := some (w.retireOnStop.getD .tripped))
          (fullCeiling_le W F { w with limit := cutLimit W F w }) fun _ => rfl))
      · rw [h1, F.putWarrant_get, if_pos rfl]
        rfl
      · exact cutLimit_between W F (w := w)
          ⟨ho.rear, ho.limit, ho.target, ho.behind, ho.short, ho.confirm⟩

/-- Carriage `c` is configured, or has a live warrant: a trip leaves it TRIPPED, and so configured. -/
def Fleet.MayTrip (F : Fleet) (c : CarId) : Prop :=
  (F.cars[c]).configured = true ∨ ∃ (i : SlotId) (w : Warrant), (F.slots[i]).warrant = some w ∧ w.carriage = c

theorem Fleet.MayTrip.length_pos (h : F.MayTrip c) :
    (F.cars[c]).configured = true ∨ (WellOrdered W F → 0 < (runOf W F c).length) := by
  refine h.imp_right ?_
  rintro ⟨i, w, hw, rfl⟩ ho
  have := (ho.warrants i w hw).rear
  have hl : (runOf W F w.carriage).last = (runOf W F w.carriage).length - 1 := rfl
  omega

theorem Fleet.MayTrip.markedFirst (h : F.MayTrip c) : (F.markedFirst c).MayTrip c := by
  refine h.imp (by rw [markedFirst_cars]; exact id) ?_
  rintro ⟨i, w, hw, hc⟩
  unfold Fleet.markedFirst
  split
  · rename_i j u hx
    by_cases hij : i = j
    · subst hij
      refine ⟨i, { w with retireOnStop := some (w.retireOnStop.getD .tripped) }, ?_, hc⟩
      rw [Fleet.modWarrant_get, if_pos rfl, hw, Option.map_some]
    · exact ⟨i, w, by rw [Fleet.modWarrant_get, if_neg hij]; exact hw, hc⟩
  · exact ⟨i, w, hw, hc⟩

/-- A change of a carriage's record that makes it TRIPPED with its current warrant marked. -/
theorem Quiet.modCar_tripped {f : Carriage → Carriage} (hm : F.MarkedCurrent c) (hc : F.MayTrip c)
    (hf : (f F.cars[c]).cfg = (F.cars[c]).cfg ∧ (f F.cars[c]).current = (F.cars[c]).current ∧
      (f F.cars[c]).stack = (F.cars[c]).stack ∧ (f F.cars[c]).pose = (F.cars[c]).pose) : Quiet W F (F.modCar c f) := by
  have hcars := F.modCar_rel (R := fun k k' => k'.cfg = k.cfg ∧ k'.current = k.current ∧
      k'.stack = k.stack ∧ k'.pose = k.pose)
    (fun _ => ⟨rfl, rfl, rfl, rfl⟩) c f hf
  refine ⟨rfl, fun d => (hcars d).1, fun d => (hcars d).2.1, fun _ d => (hcars d).2.2.1,
    fun d p h => .inr (by rw [← (hcars d).2.2.2]; exact h), fun d h => ?_, fun d h => ?_⟩ <;> by_cases hd : d = c
  · subst hd; exact hc.length_pos
  · rw [F.modCar_get_other f hd] at h; exact .inl h
  · subst hd; exact .inr hm
  · rw [F.modCar_get_other f hd] at h; exact .inl h

theorem Changes.trip (hc : F.MayTrip c) (W : World) (kind : TripKind) (v : Nat) (byCut : Bool) :
    Changes W F (trip W F c kind v byCut) := by
  unfold Machine.trip
  split
  · let F1 := F.modCar c (fun k => { k with
        trip := k.trip.map (fun t => { t with further := min 255 (t.further + 1) }) })
    have h1 : Changes W F F1 := (Quiet.modCar W F c (.of_same rfl rfl rfl rfl rfl)).changes
    have h2 : Changes W F (match F1.currentOf c with
      | some (i, _) => Machine.markWarrant W F1 i .tripped
      | none => F1) := by
      split
      · exact h1.trans (Changes.markWarrant W _ _ _)
      · exact h1
    have h3 := h2.trans (Changes.markTop W _ c .tripped)
    unfold furtherTrip
    simp only []
    cases byCut
    · exact h3
    · exact h3.trans (Changes.stopCurrent W _ c v)
  · let f : Carriage → Carriage := fun k => { k with
      state := .tripped, trip := some { kind := kind, tick := W.now, further := 0 }, holds := k.holds.add .trip }
    have hcur : (F.modCar c f).currentOf c = F.currentOf c := currentOf_congr (by rw [Fleet.modCar_get_self]) rfl
    have hcomm : (F.modCar c f).markedFirst c = (F.markedFirst c).modCar c f := by
      unfold Fleet.markedFirst
      rw [hcur]
      cases F.currentOf c <;> rfl
    have h1 : Changes W F ((F.modCar c f).markedFirst c) := by
      rw [hcomm]
      exact (Changes.markedFirst W F c).trans
        (Quiet.modCar_tripped (markedFirst_markedCurrent F c) hc.markedFirst ⟨rfl, rfl, rfl, rfl⟩).changes
    have h2 := h1.trans (Changes.stopCurrent_of_marked W (F.modCar c f) c v)
    have h3 := h2.trans (Changes.markTop W _ c .tripped)
    exact Changes.raise (h3.trans (Quiet.countTrip W _ c).changes) _

end Trips

end Sys2Proof.Machine
end

section
namespace Sys2Proof.Machine

/-! ## The stages of a report as changes (R32, R94, R123) -/

section Stages

variable {W : World} {F G : Fleet} {c : CarId} {i : SlotId} {w : Warrant}

theorem Changes.stopStage (W : World) (F : Fleet) (c : CarId) (v : Nat) : Changes W F (stopStage W F c v) := by
  unfold Machine.stopStage
  split
  · split
    · split
      · exact .retire W F _ _
      · exact .refl
    · exact .refl
  · exact .refl

/-- A rear drawn up to the trailing end, of a carriage whose leading end is not beyond the effective limit, keeps the
order of the warrant (R96). -/
theorem Ordered.drawn (ho : WellOrdered W F) (h : Ordered (runOf W F w.carriage) w)
    (hl : beyond w.dir ((F.cars[w.carriage]).lead w.dir) w.effectiveLimit = false) :
    Ordered (runOf W F w.carriage) { w with rear := rearFor W F w.carriage w.dir } := by
  have hlast : (runOf W F w.carriage).last = (runOf W F w.carriage).length - 1 := rfl
  have hpos : 0 < (runOf W F w.carriage).length := by have := h.rear; omega
  obtain ⟨hron, hrb⟩ := rearFor_spec hpos w.dir
  have htrail := trail_behind_lead (F := F) (c := w.carriage) (ho.poses w.carriage) w.dir
  have hlim := h.limit
  have hlead : beyond w.dir ((F.cars[w.carriage]).lead w.dir) w.limit = false := by
    unfold Warrant.effectiveLimit at hl
    cases hc : w.confirm with
    | none => rw [hc] at hl; exact hl
    | some x =>
      rw [hc] at hl
      have hx := (h.confirm x hc).1
      rw [Bool.eq_false_iff] at hl ⊢
      cases hd : w.dir <;> simp only [hd, Option.getD_some, ne_eq, beyond_iff] at hl hx ⊢ <;> omega
  have behind : ∀ y, 0 ≤ y → y ≤ (runOf W F w.carriage).last →
      beyond w.dir ((F.cars[w.carriage]).lead w.dir) y = false →
      atOrBeyond w.dir y (rearFor W F w.carriage w.dir) = true := by
    intro y h0 h1 hy
    rw [Bool.eq_false_iff] at hy
    unfold Run.clamp at hrb
    cases hd : w.dir <;> simp only [hd, atOrBeyond_iff, ne_eq, beyond_iff] at hy htrail hrb ⊢ <;> omega
  refine ⟨hron, hlim, h.target, behind _ hlim.1 hlim.2 hlead, h.short, fun x hx => ?_⟩
  obtain ⟨h1, h2, h3, -⟩ := h.confirm x hx
  refine ⟨h1, h2, h3, fun hon => behind x hon.1 hon.2 ?_⟩
  rw [← hl, Warrant.effectiveLimit, show w.confirm = some x from hx]
  rfl

/-- The leading end of carriage `c` is not beyond the effective limit of the warrant of slot `i`, which is `c`'s in a
fleet whose book is in order. -/
def Fleet.LeadsWithin (F : Fleet) (c : CarId) (i : SlotId) : Prop :=
  ∀ w, (F.slots[i]).warrant = some w → (F.Book → w.carriage = c) ∧
    beyond w.dir ((F.cars[c]).lead w.dir) w.effectiveLimit = false

theorem Changes.releaseRear (h : F.LeadsWithin c i) : Changes W F (releaseRear W F i) := by
  unfold Machine.releaseRear
  split
  · rename_i w hw
    simp only []
    split
    · obtain ⟨hc, hl⟩ := h w hw
      refine Changes.resettle_modWarrant hw ⟨rfl, id, .inl le_rfl, id, fun ho hold => hold.drawn ho ?_⟩
      have := hc ho.book
      subst this
      exact hl
    · exact .refl
  · exact .refl

theorem Changes.activate (W : World) (F : Fleet) (i : SlotId) (speed : Int) : Changes W F (activate F i speed) := by
  refine Changes.modWarrant F i fun w _ => ?_
  split
  · rename_i hg
    refine ⟨?_, id, .inl le_rfl, fun _ => by simp, fun _ h => ⟨h.rear, h.limit, h.target, h.behind, h.short, h.confirm⟩⟩
    simp [Warrant.role, hg.1]
  · exact .refl W F w

theorem Changes.completeStage (W : World) (F : Fleet) (i : SlotId) (v : Nat) : Changes W F (completeStage W F i v) := by
  unfold Machine.completeStage
  split
  · split
    · exact (Changes.raise (Quiet.modCar W F _ (.of_same rfl rfl rfl rfl rfl)).changes _).trans (Changes.retire W _ _ _)
    · exact .refl
  · exact .refl

/-- Carriage `c`, out of a run-out, is not beyond the effective limit of its current warrant: what a passing report
shows (R55). -/
def Fleet.Passes (F : Fleet) (c : CarId) : Prop :=
  F.inRunOut c = false → ∀ i w, F.currentOf c = some (i, w) →
    beyond w.dir ((F.cars[c]).lead w.dir) w.effectiveLimit = false

theorem Changes.progress (h : F.Passes c) (speed : Int) : Changes W F (progress W F c speed) := by
  unfold Machine.progress
  split
  · rename_i i w hx
    split
    · exact .stopStage W F c _
    · refine Relation.ReflTransGen.trans ?_ (Changes.completeStage W _ i _)
      unfold advance
      split
      · exact .refl
      · rename_i hr
        refine (Changes.activate W F i speed).trans (Changes.releaseRear (c := c) fun u hu => ?_)
        obtain ⟨hw, hcur⟩ := Fleet.slot_of_currentOf hx
        have hl := h (by simpa using hr) i w hx
        rw [Machine.activate, Fleet.modWarrant_get, if_pos rfl, hw, Option.map_some, Option.some.injEq] at hu
        subst hu
        refine ⟨fun hb => ?_, ?_⟩
        · have hcur' : ((Machine.activate F i speed).cars[c]).current =
              some ((Machine.activate F i speed).handleOf i) := by
            rw [Machine.activate, Fleet.modWarrant_handleOf]; exact hcur
          obtain ⟨v, hv, hvc, -⟩ := hb.current c _ hcur'
          rw [Fleet.live_handleOf, Machine.activate, Fleet.modWarrant_get, if_pos rfl, hw, Option.map_some,
            Option.some.injEq] at hv
          rw [hv]; exact hvc
        · split <;> exact hl
  · exact .refl

theorem passes_of_check {speed : Int} (h : envelopeCheck W F c speed = none) : F.Passes c := by
  intro hr i w hx
  have hs : F.supervising c = some (i, w) := by rw [supervising_of_not_reversal hr]; exact hx
  unfold envelopeCheck at h
  rw [hs] at h
  by_contra hb
  simp only [warrantCheck] at h
  rw [if_pos (by simpa using hb)] at h
  cases h

/-- The WARNING check touches no position. -/
theorem Fleet.Passes.warn (h : F.Passes c) : (warn F c).Passes c := by
  intro hr i w hx
  rw [Fleet.inRunOut, warn_cars] at hr
  obtain ⟨hw, hcur⟩ := Fleet.slot_of_currentOf hx
  have hs : SlotsAkin (fun u : Warrant => (u.dir, u.effectiveLimit)) F (Machine.warn F c) :=
    warn_slots (fun _ => rfl) F c
  obtain ⟨u, hu, he⟩ := hs.symm.slot hw
  have hxu : F.currentOf c = some (i, u) :=
    currentOf_of_handle (by rw [← hs.handleOf, ← hcur, warn_cars]) hu
  have hl := h hr i u hxu
  obtain ⟨hd, hlim⟩ := Prod.mk.inj he
  rw [warn_cars, ← hd, ← hlim]
  exact hl

theorem Changes.warn (W : World) (F : Fleet) (c : CarId) : Changes W F (warn F c) := by
  unfold Machine.warn
  split
  · split
    · refine Changes.raise (Changes.modWarrant F _ fun w _ => ?_) _
      exact ⟨rfl, id, .inl le_rfl, id, fun _ h => ⟨h.rear, h.limit, h.target, h.behind, h.short, h.confirm⟩⟩
    · exact .refl
  · exact .refl

theorem Changes.supervise (hc : F.MayTrip c) (W : World) (speed : Int) : Changes W F (supervise W F c speed) := by
  unfold Machine.supervise
  split
  · exact (Changes.trip hc W _ _ _).trans (Changes.stopStage W _ _ _)
  · rename_i h
    exact (Changes.warn W F c).trans (Changes.progress (passes_of_check h).warn speed)

theorem Changes.endRunOut (W : World) (F : Fleet) (c : CarId) (v : Nat) : Changes W F (endRunOut W F c v) := by
  unfold Machine.endRunOut
  split
  · have ended : ∀ G, Changes W F G → Changes W F (Machine.attempt W (refront
        (match (G.removeHold c .reversal).currentOf c with
         | some (i, _) => Machine.receiling W (G.removeHold c .reversal) i
         | none => G.removeHold c .reversal) c) c) := by
      intro G hG
      have h2 := hG.trans (Quiet.removeHold W G c .reversal).changes
      refine Relation.ReflTransGen.trans (Relation.ReflTransGen.trans ?_ (Quiet.refront W _ c).changes)
        (Changes.attempt W _ c)
      split
      · exact h2.trans (Changes.receiling W _ _)
      · exact h2
    refine ended _ ?_
    split
    · split
      · exact .retire W F _ _
      · exact .refl
    · exact .refl
  · exact .refl

theorem Changes.endMute (W : World) (F : Fleet) (c : CarId) : Changes W F (endMute W F c) := by
  unfold Machine.endMute
  split
  · exact (Quiet.modCar W F c (.of_same rfl rfl rfl rfl rfl)).changes.trans (Changes.releaseHold W _ _ _)
  · exact .refl

/-- The record of a report (R32 stages 1 to 4). -/
theorem Quiet.recordReport (hc : (F.cars[c]).configured = true) (W : World) (positions : List Nat) (speed : Int) :
    Quiet W F (recordReport W F c positions speed) := by
  rw [recordReport_eq]
  refine .of_cars rfl fun d => ?_
  have hcar : CalmCar F.cars[c] (recordedCar W F c positions speed) := by
    refine ⟨rfl, rfl, rfl, fun p hp => .inl ?_, fun _ => hc, fun ht => ?_⟩
    · have hp : some (poseOf (F.cars[c]).cfg positions) = some p := hp
      rw [← Option.some.inj hp]
      simp only [poseOf]
      omega
    · by_contra hn
      have : (recordedCar W F c positions speed).state = stateBySpeed (F.cars[c]).state speed.natAbs := rfl
      rw [this] at ht
      unfold stateBySpeed at ht
      split at ht
      · rename_i h; exact hn h
      · split at ht <;> cases ht
  by_cases hd : d = c
  · subst hd
    simpa using hcar
  · have : (c : Nat) ≠ (d : Nat) := fun e => hd (Fin.ext e.symm)
    simpa [this] using CalmCar.refl F.cars[d]

end Stages

end Sys2Proof.Machine
end

section
namespace Sys2Proof.Machine

/-! ## Demands as changes (R104 to R112, R140 to R147, R153) -/

section Demands

variable {W : World} {F G : Fleet} {c : CarId} {i : SlotId} {w : Warrant}

theorem Quiet.raiseCuts (W : World) (F : Fleet) (source : CutSource) (reached : List Reached) :
    Quiet W F (Machine.raiseCuts F source reached) := by
  have h : (Machine.raiseCuts F source reached).cars = F.cars ∧
      (Machine.raiseCuts F source reached).slots = F.slots := by
    unfold Machine.raiseCuts
    induction reached generalizing F with
    | nil => exact ⟨rfl, rfl⟩
    | cons x xs ih => exact ih _
  exact .of_eq W h.1 h.2

theorem Run.clamp_of_mem {r : Run} {x : Int} (h : 0 ≤ x ∧ x ≤ r.last) : r.clamp x = x := by
  unfold Run.clamp
  omega

/-- The positions just short of a unit of a warrant's span lie at or short of its limit. -/
theorem Ordered.short_of_span {r : Run} (h : Ordered r w) {u : TrackUnit} (hu : u ∈ r.between w.rear w.limit) :
    atOrBeyond w.dir w.limit (onward w.dir (u.near w.dir) (-1)) = true := by
  rw [Run.between_eq, Run.clamp_of_mem h.rear, Run.clamp_of_mem h.limit] at hu
  obtain ⟨-, hu⟩ := List.mem_filter.mp hu
  have hu := of_decide_eq_true hu
  have hb := h.behind
  cases hd : w.dir <;> simp only [hd, atOrBeyond_iff, onward, TrackUnit.near] at hb ⊢ <;> omega

/-- The position just short of a unit of the span other than the rear unit lies at or beyond the rear. -/
theorem Ordered.beyond_rear_unit {r : Run} (h : Ordered r w) {u : TrackUnit} (hu : u ∈ r.between w.rear w.limit)
    (hn : u.num ≠ r.numAt w.rear) : atOrBeyond w.dir (onward w.dir (u.near w.dir) (-1)) w.rear = true := by
  rw [Run.between_eq, Run.clamp_of_mem h.rear, Run.clamp_of_mem h.limit] at hu
  obtain ⟨hm, hu⟩ := List.mem_filter.mp hu
  have hu := of_decide_eq_true hu
  have hb := h.behind
  have hlast : r.last = r.length - 1 := rfl
  obtain ⟨v, hv⟩ := Run.exists_unitAt (r := r) h.rear.1 (by have := h.rear.2; omega)
  obtain ⟨hvm, hv0, hv1⟩ := Run.unitAt_some hv
  rw [Run.numAt, hv] at hn
  have hn : u.num ≠ v.num := hn
  obtain ⟨huv, hvu, -⟩ := Run.units_inOrder hm hvm
  cases hd : w.dir <;> simp only [hd, atOrBeyond_iff, onward, TrackUnit.near] at hb ⊢ <;> omega

theorem Changes.cutFromLead (hw : (F.slots[i]).warrant = some w) (W : World) (d : UnitDemand) :
    Changes W F (cutFromLead W d F i w).1 := by
  unfold Machine.cutFromLead
  simp only []
  generalize (if (F.inRunOut w.carriage && w.state != .suspended) = true then _ else _) = front
  split
  · exact .refl
  · rename_i u hu
    split
    · exact .trip (.inr ⟨i, w, hw, rfl⟩) W _ _ _
    · split
      · rename_i hlim
        have hspan : u ∈ (runOf W F w.carriage).between w.rear w.limit := by
          have := List.mem_of_find?_eq_some hu
          unfold inOrder at this
          cases hd : w.dir <;> simp only [hd, List.mem_reverse] at this <;> exact (List.mem_filter.mp this).1
        refine .shorten hw fun ho => ⟨?_, ho.short_of_span hspan⟩
        simp only [Bool.and_eq_true] at hlim
        exact hlim.2
      · split
        · exact .retire W F i _
        · exact .markWarrant W F i _

theorem Changes.cutFromRear (hw : (F.slots[i]).warrant = some w) (W : World) (d : UnitDemand) :
    Changes W F (cutFromRear W d F i w).1 := by
  unfold Machine.cutFromRear
  simp only []
  split
  · exact .refl
  · rename_i u hu
    split
    · exact .retire W F i _
    · rename_i hn
      have hspan : u ∈ (runOf W F w.carriage).between w.rear w.limit := by
        have := List.mem_of_find?_eq_some hu
        unfold inOrder at this
        cases hd : w.dir <;> simp only [hd, List.mem_reverse] at this <;> exact this
      exact .shorten hw fun ho => ⟨ho.beyond_rear_unit hspan hn, ho.short_of_span hspan⟩

/-- What each step of a demand does by changes, the demand on handles and carriages in turn does. -/
theorem Changes.cutCars_cutEach {step : Fleet → Handle → Fleet × Bool} {handles : CarId → Fleet → List Handle}
    (hs : ∀ F h, Changes W F (step F h).1) (cs : List CarId) (F : Fleet) :
    Changes W F (cutCars (fun c F => cutEach step c (handles c F) F) cs F).1 :=
  cutCars_keeps (P := Changes W F) (fun c _ hG =>
    cutEach_keeps (P := Changes W F) (fun H h hH => hH.trans (hs H h)) c _ hG) cs .refl

theorem Changes.cutToUnit (W : World) (d : UnitDemand) (F : Fleet) : Changes W F (cutToUnit W d F) := by
  obtain ⟨reached, e⟩ := cutToUnit_eq W d F
  rw [e]
  refine Relation.ReflTransGen.trans (Changes.cutCars_cutEach (fun F h => ?_) _ F) (Quiet.raiseCuts W _ _ _).changes
  unfold cutUnitStep
  split
  · exact .refl
  · rename_i w hw
    split
    · exact .cutFromLead (Fleet.slot_of_live hw) W d
    · exact .cutFromRear (Fleet.slot_of_live hw) W d

theorem Changes.cutFrontMarking (W : World) (F : Fleet) (i : SlotId) (w : Warrant) (r : Reason) :
    Changes W F (cutFrontMarking W F i w r) := by
  unfold Machine.cutFrontMarking
  split
  · exact .retire W F i r
  · exact .markWarrant W F i r

theorem Changes.cutForEstop (W : World) (F : Fleet) : Changes W F (cutForEstop W F).1 := by
  refine Changes.cutCars_cutEach (fun F h => ?_) _ F
  unfold estopStep
  split
  · exact .cutFrontMarking W F _ _ _
  · exact .refl

theorem Changes.windStep (W : World) (entered : WindState) (F : Fleet) (h : Handle) :
    Changes W F (windStep W entered F h).1 := by
  unfold Machine.windStep
  split
  · exact .refl
  · rename_i w hw
    simp only []
    split
    · exact .refl
    · split
      · split
        · refine Relation.ReflTransGen.trans ?_ (Quiet.raiseCuts W _ _ _).changes
          split
          · exact Changes.markWarrant W F _ _
          · exact Changes.retire W F _ _
        · exact .refl
      · split
        · have hslot := Fleet.slot_of_live hw
          rcases cutFront_cases W .wind F h.slot w with ⟨-, e⟩ | ⟨-, e⟩ <;> rw [e]
          exact Changes.raise (Changes.shorten hslot (cutLimit_between W F)) _
        · exact .refl

theorem Changes.windChanged (W : World) (old : WindState) (F : Fleet) : Changes W F (windChanged W old F) := by
  have h1 : ∀ d, Changes W F (F.raise d) := fun d => (Quiet.raise W F d).changes
  have h2 : ∀ d, Changes W F (cutForWind W W.wind.state (F.raise d)).1 := fun d =>
    (h1 d).trans (Changes.cutCars_cutEach (Changes.windStep W _) _ _)
  unfold Machine.windChanged
  simp only []
  split
  · exact .refl
  · split
    · split
      · exact Changes.raise (h2 _) _
      · exact h2 _
    · exact h1 _

theorem Changes.cutForKey (W : World) (F : Fleet) : Changes W F (cutForKey W F) := by
  obtain ⟨reached, d, e⟩ := cutForKey_eq W F
  rw [e]
  refine Changes.raise (Relation.ReflTransGen.trans ?_ (Quiet.raiseCuts W _ _ _).changes) d
  refine Relation.ReflTransGen.trans (Changes.cutCars_cutEach (fun F h => ?_) _ F)
    (Changes.cutCars_cutEach (handles := fun c F => (F.cars[c]).current.toList) (fun F h => ?_) _ _)
  · unfold keySuspendedStep
    split
    · exact .refl
    · split
      · split
        · exact .markWarrant W F _ _
        · exact .retire W F _ _
      · exact .refl
  · unfold keyCurrentStep
    split
    · exact .refl
    · split
      · exact (Quiet.addHold W F _ _).changes.trans (Changes.cutFrontMarking W _ _ _ _)
      · exact .refl

end Demands

/-! ## Warrant requests as changes (R77 to R87, R102) -/

section Requests

variable {W : World} {F G : Fleet} {c : CarId} {i : SlotId} {w : Warrant}

/-- The current warrant set aside (R119). -/
theorem Changes.suspend (hx : F.currentOf c = some (i, w)) : Changes W F (suspend F c i) := by
  obtain ⟨hw, -⟩ := Fleet.slot_of_currentOf hx
  refine Change.changes (.suspended i c w hx ?_ (fun j hj => ?_) ?_ fun d hd => ?_)
  · rw [Machine.suspend, Fleet.modCar_slots, Fleet.modWarrant_get, if_pos rfl, hw, Option.map_some]
  · rw [Machine.suspend, Fleet.modCar_slots, Fleet.modWarrant_get, if_neg hj]
  · rw [Machine.suspend, Fleet.modCar_get_self, Fleet.modWarrant_cars]
  · rw [Machine.suspend, Fleet.modCar_get_other _ _ hd, Fleet.modWarrant_cars]

/-- The warrant that an `ask` issues (R80). -/
def issuedWarrant (W : World) (F : Fleet) (c : CarId) (o : Origin) (k : Cls) (d : Dir) (target : Int) (lifetime : Nat)
    (res : WalkResult) : Warrant :=
  let w0 : Warrant := {
    carriage := c, origin := o, cls := k, dir := d, target := target, limit := res.limit, rear := rearFor W F c d,
    confirm := res.confirm, ceiling := 0, state := .granted, expiry := some (W.now + BitVec.ofNat 32 lifetime),
    lifetime := lifetime, retireOnStop := none, warned := false }
  { w0 with ceiling := fullCeiling W F w0 }

/-- The fleet with the slot issued, before the warrant's entry and holdings follow (R80). -/
def issuedTo (F : Fleet) (i : SlotId) (w : Warrant) : Fleet :=
  let F1 : Fleet := { F with
    slots := F.slots.set i { generation := (F.slots[i]).generation + 1, warrant := some w } }
  F1.modCar w.carriage (fun car => { car with current := some (F1.handleOf i) })

theorem issue_eq (W : World) (F : Fleet) (i : SlotId) (c : CarId) (o : Origin) (k : Cls) (d : Dir) (target : Int)
    (lifetime : Nat) (res : WalkResult) : issue W F i c o k d target lifetime res =
      resettle W (issuedTo F i (issuedWarrant W F c o k d target lifetime res)) i := rfl

theorem issuedTo_slot (F : Fleet) (i : SlotId) (w : Warrant) :
    (issuedTo F i w).slots[i] = { generation := (F.slots[i]).generation + 1, warrant := some w } := by
  simp [issuedTo]

theorem issuedTo_slots (F : Fleet) (i : SlotId) (w : Warrant) : F.sameSlotsBut (issuedTo F i w) i := by
  intro j hj
  have : (i : Nat) ≠ (j : Nat) := fun e => hj (Fin.ext e.symm)
  simp [issuedTo, this]

theorem Changes.issue {o : Origin} {k : Cls} {d : Dir} {target : Int} {lifetime : Nat} {res : WalkResult}
    (hfree : (F.slots[i]).warrant = none) (hl : W.map.locked = true) (hnone : F.currentOf c = none)
    (hcalm : (F.cars[c]).state ≠ .tripped)
    (ho : WellOrdered W F → Ordered (runOf W F c) (issuedWarrant W F c o k d target lifetime res)) :
    Changes W F (issue W F i c o k d target lifetime res) := by
  rw [issue_eq]
  generalize hw : issuedWarrant W F c o k d target lifetime res = w at ho
  have hc : w.carriage = c := by rw [← hw]; rfl
  have hfresh : Fresh W F w := by
    subst hw
    exact ⟨rfl, rfl, fullCeiling_le W F _, ho⟩
  subst hc
  refine Change.changes (.issued i w hfree ?_ (fun j hj => ?_) ?_ (fun e he => ?_) hnone hcalm hl hfresh)
  · rw [resettle_slots, issuedTo_slot]
  · rw [resettle_slots, issuedTo_slots F i w j hj]
  · have hh : (resettle W (issuedTo F i w) i).handleOf i = (issuedTo F i w).handleOf i := by
      simp only [Fleet.handleOf, resettle_slots]
    rw [resettle_cars, hh, issuedTo, Fleet.modCar_get_self]
    rfl
  · rw [resettle_cars, issuedTo, Fleet.modCar_get_other _ _ he]

/-- The ask's walk starts at the leading end, and its direction is the way to the target (R69, R78). -/
theorem issuedWarrant_ordered {o : Origin} {k : Cls} {d : Dir} {target : Int} {lifetime : Nat}
    (hm : W.map.lengthsInRange) (hposes : ∀ x, (G.cars[c]).pose = some x → x.lower ≤ x.upper)
    (hpos : 0 < (runOf W G c).length) (hcfg : (G.cars[c]).cfg = (F.cars[c]).cfg)
    (hpose : (G.cars[c]).pose = (F.cars[c]).pose) (ht : 0 ≤ target ∧ target ≤ (runOf W G c).last)
    (hg : (walk W F (askPlan F c k d target)).gains (askPlan F c k d target) = true) :
    Ordered (runOf W G c) (issuedWarrant W G c o k d target lifetime (walk W F (askPlan F c k d target))) := by
  have hrun : runOf W G c = runOf W F c := by simp only [runOf, hcfg]
  have hrear : rearFor W G c d = rearFor W F c d := by simp only [rearFor, hrun, Carriage.trail, hpose]
  rw [hrun] at hpos ht ⊢
  rw [hpose] at hposes
  exact ordered_of_walk (p := askPlan F c k d target) hm hposes hpos rfl ht hg rfl rfl rfl hrear fun x hx => .inl hx

end Requests

end Sys2Proof.Machine
end

section
namespace Sys2Proof.Machine

/-! ## The rules of the warrants and holds as changes -/

section Rules

variable {W : World} {F G : Fleet} {c : CarId} {i : SlotId} {w : Warrant}

theorem clampTarget_on_run {r : Run} (hpos : 0 < r.length) (x : Nat) :
    0 ≤ clampTarget r x ∧ clampTarget r x ≤ r.last := by
  have hlast : r.last = r.length - 1 := rfl
  unfold clampTarget
  omega

/-- The grant of an `ask` that its walk allows (R80, R119). -/
theorem Changes.grant {o : Origin} {k : Cls} {d : Dir} {target lifetime : Nat}
    (hfree : (F.slots[i]).warrant = none) (hl : W.map.locked = true) (hc : (F.cars[c]).configured = true)
    (hcalm : (F.cars[c]).state ≠ .tripped)
    (hg : (walk W F (askPlan F c k d (clampTarget (runOf W F c) target))).gains
      (askPlan F c k d (clampTarget (runOf W F c) target)) = true) :
    Changes W F (grant W F i c o k d (clampTarget (runOf W F c) target) lifetime
      (walk W F (askPlan F c k d (clampTarget (runOf W F c) target)))) := by
  unfold Machine.grant
  split
  · rename_i j w hx
    obtain ⟨hw, -⟩ := Fleet.slot_of_currentOf hx
    have hij : i ≠ j := by rintro rfl; rw [hw] at hfree; cases hfree
    have hcar : (Machine.suspend F c j).cars[c] =
        { F.cars[c] with current := none, stack := (F.cars[c]).stack ++ [F.handleOf j] } := by
      rw [Machine.suspend, Fleet.modCar_get_self, Fleet.modWarrant_cars]
    have hrun : runOf W (Machine.suspend F c j) c = runOf W F c := by simp only [runOf, hcar]
    have hi : Changes W (Machine.suspend F c j) (Machine.issue W (Machine.suspend F c j) i c o k d
        (clampTarget (runOf W F c) target) lifetime
        (walk W F (askPlan F c k d (clampTarget (runOf W F c) target)))) := by
      refine Changes.issue ?_ hl (currentOf_none (by rw [hcar])) (by rw [hcar]; exact hcalm) fun ho => ?_
      · rw [Machine.suspend, Fleet.modCar_slots, Fleet.modWarrant_get, if_neg hij]; exact hfree
      · have hpos := ho.runs hl c (by rw [hcar]; exact hc)
        exact issuedWarrant_ordered ho.lengths (ho.poses c) hpos (by rw [hcar]) (by rw [hcar])
          (hrun ▸ clampTarget_on_run (hrun ▸ hpos) target) hg
    refine ((Changes.suspend hx).trans hi).trans (Relation.ReflTransGen.trans ?_ (Quiet.refront W _ c).changes)
    split
    · exact (Quiet.addHold W _ c _).changes
    · exact .refl
  · rename_i hx
    refine (Changes.issue hfree hl hx hcalm fun ho => ?_).trans (Quiet.refront W _ c).changes
    have hpos := ho.runs hl c hc
    exact issuedWarrant_ordered ho.lengths (ho.poses c) hpos rfl rfl (clampTarget_on_run hpos target) hg

/-- What an `extend` writes is an edit of its warrant (R83). -/
theorem Edit.extended {target : Nat} (hw : (F.slots[i]).warrant = some w)
    (hg : (walk W F (extendPlan W F i w (clampTarget (runOf W F w.carriage) target))).gains
      (extendPlan W F i w (clampTarget (runOf W F w.carriage) target)) = true) :
    Edit W F w (extended W F w (clampTarget (runOf W F w.carriage) target)
      (walk W F (extendPlan W F i w (clampTarget (runOf W F w.carriage) target)))) where
  role := rfl
  mark := id
  ceiling := .inl ((leastCeiling_isLeast w.cls W F w.carriage _ _).2 (.inl rfl))
  expiry h := by
    simp only [Machine.extended]
    split
    · simpa using ‹w.state = .granted›
    · exact h
  ordered ho h := by
    have hlast : (runOf W F w.carriage).last = (runOf W F w.carriage).length - 1 := rfl
    have hon := clampTarget_on_run (r := runOf W F w.carriage) (by have := h.rear; omega) target
    exact extended_ordered ho hw hon.2 hon.1 hg

theorem Changes.extendWarrant (hw : (F.slots[i]).warrant = some w) (W : World) (target : Nat) :
    Changes W F (extendWarrant W F i w target).1 := by
  unfold Machine.extendWarrant
  simp only []
  split
  · exact .refl
  · split
    · exact .refl
    · split
      · exact .refl
      · split
        · exact .resettle_modWarrant hw (.extended hw ‹_›)
        · exact .refl

/-- The limit a trim takes lies between the rear and the limit (R84). -/
theorem trimTaken_between {r : Run} {new : Int} (W : World) (F : Fleet) (h : Ordered r w)
    (hn : beyond w.dir w.limit new = true) :
    atOrBeyond w.dir (trimTaken W F w new) w.rear = true ∧ atOrBeyond w.dir w.limit (trimTaken W F w new) = true := by
  have hb := h.behind
  have hfloor : atOrBeyond w.dir (trimFloor W F w) w.rear = true := by
    unfold trimFloor
    split
    · cases w.dir <;> simp [atOrBeyond_iff]
    · unfold cutFloor notBehindRear
      generalize (if (F.inRunOut w.carriage && w.state != .suspended) = true then _ else _) = stop
      cases hd : w.dir <;> simp only [hd, beyond_iff, atOrBeyond_iff] at hb ⊢ <;> split <;> omega
  unfold trimTaken
  simp only []
  cases hd : w.dir <;> simp only [hd, beyond_iff, atOrBeyond_iff] at hb hn hfloor ⊢ <;> split <;> try split
  all_goals omega

theorem Changes.trimWarrant (hw : (F.slots[i]).warrant = some w) (W : World) (new : Int) :
    Changes W F (trimWarrant W F i w new).1 := by
  unfold Machine.trimWarrant
  split
  · exact .refl
  · rename_i hn
    simp only []
    split
    · exact .refl
    · exact .shorten hw fun ho => trimTaken_between W F ho (by simpa using hn)

theorem Changes.releaseWarrant (W : World) (F : Fleet) (i : SlotId) (w : Warrant) :
    Changes W F (releaseWarrant W F i w).1 := by
  unfold Machine.releaseWarrant
  split
  · exact .markWarrant W F i _
  · exact .retire W F i _

theorem Edit.confirmed (W : World) (F : Fleet) (w : Warrant) : Edit W F w { w with confirm := none } :=
  ⟨rfl, id, .inl le_rfl, id, fun _ h => ⟨h.rear, h.limit, h.target, h.behind, h.short, nofun⟩⟩

theorem Changes.expire (W : World) (F : Fleet) (i : SlotId) : Changes W F (expire W F i) := by
  unfold Machine.expire
  split
  · exact (Quiet.raise W F _).changes.trans (Changes.retire W _ i _)
  · exact .refl

theorem Changes.releaseHoldAll (W : World) (F : Fleet) (x : Cause) : Changes W F (releaseHoldAll W F x) := by
  unfold Machine.releaseHoldAll
  induction List.finRange 16 generalizing F with
  | nil => exact .refl
  | cons c cs ih =>
    refine Relation.ReflTransGen.trans ?_ (ih _)
    beta_reduce
    split
    · exact Changes.releaseHold W F c x
    · exact .refl

/-- A cleared carriage was TRIPPED (R159, R160). -/
theorem clearRefusal_none {o : Origin} (h : clearRefusal W F o c = none) :
    (F.cars[c]).configured = true ∧ (F.cars[c]).state = .tripped := by
  unfold clearRefusal at h
  simp only [] at h
  split at h
  · cases h
  · rename_i hc
    split at h
    · exact ⟨by simpa using hc, by assumption⟩
    · cases h

theorem Changes.clearTrip {o : Origin} (h : clearRefusal W F o c = none) : Changes W F (clearTrip W F c) := by
  obtain ⟨hc, -⟩ := clearRefusal_none h
  exact (Quiet.modCar W F c ⟨rfl, rfl, rfl, fun _ => .inr, fun _ => hc, fun h => by cases h⟩).changes.trans
    (Changes.releaseHold W _ c _)

theorem Changes.retireAll (W : World) (F : Fleet) : Changes W F (retireAll W F) := by
  unfold Machine.retireAll
  induction List.finRange 48 generalizing F with
  | nil => exact .refl
  | cons i is ih => exact (Changes.retireQuietly W F i _).trans (ih _)

theorem Quiet.restartHolders (W : World) (F : Fleet) (before : Vector (Option CarId) 32) :
    Quiet W F (restartHolders W before F) := by
  unfold Machine.restartHolders
  split
  · exact .of_eq W rfl rfl
  · exact .of_eq W rfl rfl

theorem Changes.restartFleet (W : World) (F : Fleet) : Changes W F (restartFleet W F) := by
  have h1 : Changes W F (Machine.restartHolders W F.holders (Machine.retireAll W F)) :=
    (Changes.retireAll W F).trans (Quiet.restartHolders W _ _).changes
  have h2 := h1.trans (Quiet.addHoldAll W _ .assuredHold).changes
  have h3 : ∀ G : Fleet, Quiet W G
      { G with cars := G.cars.map (fun k => { k with holds := k.holds.remove .reversal }) } :=
    fun G => .of_cars rfl fun c => by
      simp only [Fin.getElem_fin, Vector.getElem_map]
      exact .of_same rfl rfl rfl rfl rfl
  have h4 : ∀ G : Fleet, Quiet W G (clearNotices G) := fun G => .of_eq W rfl rfl
  exact (h2.trans (h3 _).changes).trans (h4 _).changes

theorem Changes.recomputeCeilings (W : World) (run : RunId) (b : Nat) (F : Fleet) :
    Changes W F (recomputeCeilings W run b F) := by
  unfold Machine.recomputeCeilings
  induction List.finRange 48 generalizing F with
  | nil => exact .refl
  | cons i is ih =>
    refine Relation.ReflTransGen.trans ?_ (ih _)
    beta_reduce
    split
    · split
      · exact Changes.receiling W F i
      · exact .refl
    · exact .refl

theorem Changes.becomeMute (W : World) (F : Fleet) (c : CarId) : Changes W F (becomeMute F c) := by
  unfold Machine.becomeMute
  split
  · exact Changes.raise ((Quiet.modCar W F c (.of_same rfl rfl rfl rfl rfl)).changes.trans
      (Quiet.addHold W _ c _).changes) _
  · exact .refl

end Rules

end Sys2Proof.Machine
end

section
namespace Sys2Proof.Machine

/-! ## What a command can do to the records that the laws of the warrants read -/

/-- The lengths and counts of R2. -/
def BayShape.inRange : BayShape → Prop
  | .plain l => 200 ≤ l
  | .celled l n => 100 ≤ l ∧ l ≤ 4095 ∧ 2 ≤ n ∧ n ≤ 32

theorem lengthsInRange_iff (m : TrackMap) :
    m.lengthsInRange ↔ ∀ (r : RunId) (b : Bay), b ∈ (m.runs[r]).bays → b.shape.inRange := by
  refine forall₃_congr fun r b _ => ?_
  cases b.shape <;> exact Iff.rfl

/-- The shape of a `setbay` lies in range (R13). -/
theorem shapeOf_inRange {kind length count : Nat} {shape : BayShape} (h : shapeOf kind length count = some shape) :
    shape.inRange := by
  unfold shapeOf at h
  split at h
  · split at h
    · cases h; assumption
    · cases h
  · split at h
    · cases h; assumption
    · cases h
  · cases h

theorem bayOf_inRange {q : SetBayBody} {bay : Bay} (h : bayOf q = some bay) : bay.shape.inRange := by
  unfold bayOf at h
  split at h
  · rename_i hs _ _ _ _ _
    split at h
    · cases h; exact shapeOf_inRange hs
    · cases h
  · cases h

theorem mem_putBay {run : Run} {n : Nat} {bay b : Bay} (h : b ∈ (putBay run n bay).bays) : b ∈ run.bays ∨ b = bay := by
  unfold putBay at h
  simp only [] at h
  split at h
  · exact List.mem_or_eq_of_mem_set h
  · simpa using h

/-- A record of a map edit (R12 to R15, R26 to R28): the UNLOCKED map stays so, no slot changes, and no carriage takes a
warrant. -/
structure Edited (r r' : Records) : Prop where
  was : r.world.map.locked = false
  stays : r'.world.map.locked = false
  slots : r'.fleet.slots = r.fleet.slots
  handles : ∀ c : CarId, ((r'.fleet.cars[c]).current = (r.fleet.cars[c]).current ∧
    (r'.fleet.cars[c]).stack = (r.fleet.cars[c]).stack) ∨
      ((r'.fleet.cars[c]).current = none ∧ (r'.fleet.cars[c]).stack = [])
  lengths : r.world.map.lengthsInRange → r'.world.map.lengthsInRange
  poses : ∀ (c : CarId) (p : Pose), (r'.fleet.cars[c]).pose = some p →
    p.lower ≤ p.upper ∨ (r.fleet.cars[c]).pose = some p

/-- One move of the records. -/
inductive Records.Move (r r' : Records) : Prop
  | fleet (world : r'.world = r.world) (h : Change r.world r.fleet r'.fleet)
  /-- The world changes in nothing that the warrants stand on. -/
  | track (fleet : r'.fleet = r.fleet) (h : SameTrack r.world.map r'.world.map)
  | edited (h : Edited r r')
  /-- The map is locked (R18, R19) or unlocked (R20). -/
  | relocked (fleet : r'.fleet = r.fleet) (runs : r'.world.map.runs = r.world.map.runs)
      (lengths : r'.world.map.locked = true → ∀ c : CarId, (r.fleet.cars[c]).configured = true →
        0 < (runOf r.world r.fleet c).length)
      (bare : r'.world.map.locked = false → ∀ i : SlotId, (r.fleet.slots[i]).warrant = none)

/-- Moves one after the other. -/
abbrev Records.Moves : Records → Records → Prop := Relation.ReflTransGen Records.Move

section Moves

variable {r : Records} {W : World} {F : Fleet}

/-- What changes the fleet moves the records. -/
theorem Records.Moves.of_changes (h : Changes r.world r.fleet F) : r.Moves { r with fleet := F } := by
  induction h with
  | refl => exact .refl
  | tail _ h ih => exact ih.tail (.fleet rfl h)

theorem Records.Moves.of_track (h : SameTrack r.world.map W.map) : r.Moves { r with world := W } :=
  .single (.track rfl h)

/-- The world changes first, then the fleet. -/
theorem Records.Moves.of_both (h : SameTrack r.world.map W.map) (hc : Changes W r.fleet F) :
    r.Moves { r with world := W, fleet := F } :=
  (Records.Moves.of_track h).trans (Records.Moves.of_changes (r := { r with world := W }) hc)

/-- The map changed in a way its track does not show, then the fleet. -/
theorem Records.Moves.of_map {m : TrackMap} (h : SameTrack r.world.map m) (hc : Changes (r.withMap m).world r.fleet F) :
    r.Moves { r.withMap m with fleet := F } :=
  Records.Moves.of_both (W := (r.withMap m).world) h hc

/-! ### Map requests -/

/-- A map edit of one run. -/
theorem Records.Moves.setRun {i : RunId} {run : Run} (hu : r.world.map.locked = false)
    (hb : ∀ b ∈ run.bays, b ∈ (r.world.map.runs[i]).bays ∨ b.shape.inRange) :
    r.Moves (r.withMap (r.world.map.setRun i run)) := by
  refine .single (.edited ⟨hu, hu, rfl, fun _ => .inl ⟨rfl, rfl⟩, fun h => ?_, fun _ _ => .inr⟩)
  rw [lengthsInRange_iff] at h ⊢
  intro j b hj
  have hj : b ∈ ((r.world.map.setRun i run).runs[j]).bays := hj
  rw [TrackMap.setRun_get] at hj
  split at hj
  · exact (hb b hj).elim (h i b) id
  · exact h j b hj

theorem Records.Moves.setrunRule (o : Origin) (q : SetRunBody) : r.Moves (setrunRule o q r).1 := by
  refine lockFirst_keeps (Q := r.Moves) .refl fun hu => ?_
  split
  · split
    · exact .refl
    · split
      · split
        · refine .setRun hu fun b hb => .inl ?_
          simp only [setRunRecord] at hb
          split at hb
          · exact hb
          · cases hb
        · exact .refl
      · exact .setRun hu fun b hb => by cases hb
  · exact .refl

theorem Records.Moves.setbayRule (o : Origin) (q : SetBayBody) : r.Moves (setbayRule o q r).1 := by
  refine lockFirst_keeps (Q := r.Moves) .refl fun hu => ?_
  split
  · rename_i hb
    split
    · exact .refl
    · simp only []
      split
      · exact .refl
      · split
        · exact .refl
        · exact .setRun hu fun b h => (mem_putBay h).imp_right fun e => by rw [e]; exact bayOf_inRange hb
  · exact .refl

theorem Records.Moves.truncateRule (o : Origin) (q : SetBayBody) : r.Moves (truncateRule o q r).1 := by
  refine lockFirst_keeps (Q := r.Moves) .refl fun hu => ?_
  split
  · split
    · exact .refl
    · simp only []
      split
      · exact .refl
      · split
        · exact .refl
        · exact .setRun hu fun b h => .inl (List.mem_of_mem_take h)
  · exact .refl

theorem Records.Moves.setzoneRule (o : Origin) (q : SetZoneBody) : r.Moves (setzoneRule o q r).1 := by
  refine lockFirst_keeps (Q := r.Moves) .refl fun hu => ?_
  split
  · exact .single (.edited ⟨hu, hu, rfl, fun _ => .inl ⟨rfl, rfl⟩, id, fun _ _ => .inr⟩)
  · exact .refl

theorem Records.Moves.serviceRule (o : Origin) (q : TripleBody) : r.Moves (serviceRule o q r).1 := by
  refine assuredOnly_keeps (Q := r.Moves) .refl ?_
  split
  · exact .refl
  · rename_i v _
    refine withBay_keeps (Q := r.Moves) .refl fun i b => ?_
    have ht : SameTrack r.world.map (r.world.map.modBay i q.snd (fun b => { b with inService := v })) :=
      .modBay _ _ _ _ fun _ => rfl
    simp only []
    split
    · exact .of_map ht (Changes.cutToUnit _ _ _)
    · exact .of_map ht .refl

theorem Records.Moves.ceilingRule (o : Origin) (q : CeilingBody) : r.Moves (ceilingRule o q r).1 := by
  refine assuredOnly_keeps (Q := r.Moves) .refl ?_
  split
  · exact .refl
  · refine withBay_keeps (Q := r.Moves) .refl fun i b => ?_
    have ht : SameTrack r.world.map (r.world.map.modBay i q.bay (fun b => { b with ceiling := q.ceiling })) :=
      .modBay _ _ _ _ fun _ => rfl
    simp only []
    split
    · exact .of_map ht (Changes.recomputeCeilings _ _ _ _)
    · exact .of_map ht .refl

/-- Every configured carriage of a map that passes the lock validation stands on a run with positions (R19, code 8). -/
theorem length_pos_of_lockFault (h : lockFault W F = none) {c : CarId} (hc : (F.cars[c]).configured = true) :
    0 < (runOf W F c).length := by
  obtain ⟨-, -, -, hcars, -⟩ := (lockFault_eq_none_iff W F).mp h
  obtain ⟨-, h0, h1⟩ := hcars c hc
  have hlast : (runOf W F c).last = (runOf W F c).length - 1 := rfl
  omega

theorem Records.Moves.lockRule (o : Origin) (q : Unit) : r.Moves (lockRule o q r).1 := by
  refine assuredOnly_keeps (Q := r.Moves) .refl ?_
  split
  · exact .refl
  · split
    · exact .refl
    · rename_i he
      have h1 : r.Moves (r.withMap { r.world.map with locked := true }) :=
        .single (.relocked rfl rfl (fun _ c hc => length_pos_of_lockFault he hc) nofun)
      refine h1.trans (Records.Moves.of_changes ?_)
      have h2 : ∀ W G, Quiet W G (lockHolders W G) := fun W G =>
        .of_eq W (lockHolders_kept W G).1 (lockHolders_kept W G).2.1
      simp only []
      split
      · exact (h2 _ _).changes.trans (Quiet.addHoldAll _ _ _).changes
      · exact (h2 _ _).changes

theorem Records.Moves.unlockRule (o : Origin) (q : Unit) : r.Moves (unlockRule o q r).1 := by
  refine assuredOnly_keeps (Q := r.Moves) .refl ?_
  split
  · exact .refl
  · rename_i hl
    have hw := (anyLive_eq_false_iff r.fleet).mp (by simpa using hl)
    split
    · have h1 : r.Moves (r.withMap { r.world.map with locked := false }) :=
        .single (.relocked rfl rfl nofun fun _ => hw)
      have h2 : ∀ W, Quiet W r.fleet r.fleet.clearHolders := fun W => .of_eq W rfl rfl
      exact h1.trans (Records.Moves.of_changes (h2 _).changes)
    · exact .refl

theorem Records.Moves.marksRule (o : Origin) (q : PairBody) : r.Moves (marksRule o q r).1 := by
  unfold Machine.marksRule
  split
  · simp only []
    split
    · exact .of_map (.clearMarks _ _) .refl
    · exact .refl
  · exact .refl

/-! ### Carriages -/

/-- A map edit of one carriage's record, which it leaves without warrants. -/
theorem Records.Moves.setCar {c : CarId} {f : Carriage → Carriage} (hu : r.world.map.locked = false)
    (hf : (f r.fleet.cars[c]).current = none ∧ (f r.fleet.cars[c]).stack = [])
    (hp : ∀ p, (f r.fleet.cars[c]).pose = some p → p.lower ≤ p.upper) :
    r.Moves { r with fleet := r.fleet.modCar c f } := by
  refine .single (.edited ⟨hu, hu, rfl, fun d => ?_, id, fun d p => ?_⟩) <;> simp only [Fleet.modCar_get] <;> split
  · exact .inr hf
  · exact .inl ⟨rfl, rfl⟩
  · exact fun h => .inl (hp p h)
  · exact .inr

theorem Records.Moves.setcarRule (o : Origin) (q : SetCarBody) : r.Moves (setcarRule o q r).1 := by
  refine lockFirst_keeps (Q := r.Moves) .refl fun hu => ?_
  split
  · split
    · exact .refl
    · split
      · exact .refl
      · split
        · exact .refl
        · refine .setCar hu ⟨rfl, rfl⟩ fun p hp => ?_
          rw [← Option.some.inj hp]
          simp only [CarConfig.homePose, CarConfig.homeLower, CarConfig.homeUpper]
          omega
  · exact .refl

theorem Records.Moves.setcarNoRule (o : Origin) (q : Nat) : r.Moves (setcarNoRule o q r).1 := by
  refine lockFirst_keeps (Q := r.Moves) .refl fun hu => ?_
  split
  · exact .setCar hu ⟨rfl, rfl⟩ nofun
  · exact .refl

/-- An accepted report (R32): the fleet up to stage 5, the marks of stage 6, the fleet again. -/
theorem Records.Moves.takeReport {c : CarId} (hc : (r.fleet.cars[c]).configured = true)
    (positions : List Nat) (speed : Int) :
    r.Moves { r with world := (takeReport r.world r.fleet c positions speed).1,
                     fleet := (takeReport r.world r.fleet c positions speed).2 } := by
  have h4 : Changes r.world r.fleet (recordReport r.world r.fleet c positions speed) :=
    (Quiet.recordReport hc r.world positions speed).changes
  have hc4 : ((recordReport r.world r.fleet c positions speed).cars[c]).configured = true := by
    rw [recordReport_eq]
    simp only [Fin.getElem_fin, Vector.getElem_set_self, recordedCar, Carriage.configured, stateBySpeed]
    split
    · decide
    · split <;> decide
  unfold Machine.takeReport
  simp only []
  cases trackCheck r.world (recordReport r.world r.fleet c positions speed) c with
  | none =>
    refine (Records.Moves.of_changes h4).trans (Records.Moves.of_both (.setMarks _ _ _ _) ?_)
    refine ((Quiet.rezone _ _ c).changes.trans ?_).trans
      ((Changes.endRunOut _ _ c _).trans (Changes.endMute _ _ c))
    exact Changes.supervise (.inl (by rw [rezone_cars]; exact hc4)) _ speed
  | some kind =>
    have h5 := h4.trans (Changes.trip (.inl hc4) r.world kind speed.natAbs false)
    refine (Records.Moves.of_changes h5).trans (Records.Moves.of_both (.setMarks _ _ _ _) ?_)
    exact ((Quiet.rezone _ _ c).changes.trans (Changes.stopStage _ _ c _)).trans
      ((Changes.endRunOut _ _ c _).trans (Changes.endMute _ _ c))

theorem Records.Moves.reportRule (o : Origin) (q : ReportBody) : r.Moves (reportRule o q r).1 := by
  unfold Machine.reportRule
  split
  · exact .refl
  · split
    · rename_i h
      simp only [acceptsReport, Bool.and_eq_true] at h
      exact .takeReport h.1.1 _ _
    · exact .refl

/-! ### Warrants and holds -/

/-- An `ask` past checks 3 to 9 is for a configured carriage that is not TRIPPED (R77). -/
theorem askRefusal_none {o : Origin} {c : CarId} {k : Cls} (h : askRefusal F o c k = none) :
    (F.cars[c]).configured = true ∧ (F.cars[c]).state ≠ .tripped := by
  unfold askRefusal at h
  simp only [] at h
  split at h
  · cases h
  · rename_i hs
    rw [not_or] at hs
    refine ⟨by simpa [Carriage.configured] using hs.1, fun ht => ?_⟩
    split at h
    · cases h
    · split at h
      · cases h
      · cases h

theorem Records.Moves.askRule (o : Origin) (q : AskBody) : r.Moves (askRule o q r).1 := by
  unfold Machine.askRule
  split
  · split
    · exact .refl
    · split
      · exact .refl
      · rename_i hl
        split
        · exact .refl
        · rename_i hr _
          obtain ⟨hc, hcalm⟩ := askRefusal_none hr
          unfold askWalk
          simp only []
          split
          · rename_i hi
            split
            · exact .of_changes (Changes.grant (Fleet.freeSlot_free _ _ hi) (by simpa using hl) hc hcalm ‹_›)
            · exact .refl
          · exact .refl
          · exact .refl
        · exact .refl
  · exact .refl

theorem Records.Moves.confirmRule (o : Origin) (q : HandleBody) : r.Moves (confirmRule o q r).1 := by
  refine withHandle_keeps (Q := r.Moves) .refl fun i w _ => ?_
  split
  · exact .refl
  · exact .of_changes (Changes.modWarrant _ _ fun w _ => .confirmed _ _ w)

theorem Records.Moves.holdRule (o : Origin) (q : Nat) : r.Moves (holdRule o q r).1 := by
  unfold Machine.holdRule
  split
  · exact .refl
  · exact .of_changes (Quiet.addHoldAll _ _ _).changes
  · split
    · exact .of_changes (Quiet.addHold _ _ _ _).changes
    · exact .refl

theorem Records.Moves.unholdRule (o : Origin) (q : PairBody) : r.Moves (unholdRule o q r).1 := by
  unfold Machine.unholdRule
  split
  · split
    · exact .refl
    · split
      · exact .refl
      · split
        · exact .refl
        · unfold unholdTarget
          split
          · exact .of_changes (Changes.releaseHold _ _ _ _)
          · exact .of_changes (Changes.releaseHoldAll _ _ _)
  · exact .refl

theorem Records.Moves.clearRule (o : Origin) (q : Nat) : r.Moves (clearRule o q r).1 := by
  unfold Machine.clearRule
  split
  · exact .refl
  · split
    · exact .refl
    · exact .of_changes (Changes.clearTrip ‹_›)

theorem Records.Moves.restoreRule (o : Origin) (q : Nat) : r.Moves (restoreRule o q r).1 := by
  refine assuredOnly_keeps (Q := r.Moves) .refl ?_
  split
  · exact .refl
  · split
    · exact .of_changes (Quiet.modCar _ _ _ (.of_same rfl rfl rfl rfl rfl)).changes
    · exact .refl

/-! ### Conditions, wind and lines -/

/-- A world with the same map. -/
theorem Records.Moves.of_world (hm : W.map = r.world.map) : r.Moves { r with world := W } :=
  .of_track (by rw [hm]; exact .refl _)

theorem Records.Moves.withWind (w : Wind) : r.Moves (r.withWind w) :=
  .of_both (.refl _) (Changes.windChanged _ _ _)

theorem Records.Moves.changeCondition (n : CondId) (v : Bool) : r.Moves (changeCondition n v r) := by
  unfold Machine.changeCondition
  split
  · exact .refl
  · refine .of_both (.refl _) ?_
    split
    · exact (Quiet.raise _ _ _).changes
    · exact (Quiet.raise _ _ _).changes.trans (Changes.cutToUnit _ _ _)

theorem Records.Moves.takeWindTimeout : r.Moves (takeWindTimeout r) := by
  unfold Machine.takeWindTimeout
  split
  · exact .withWind _
  · exact .refl

theorem Records.Moves.estopRecords : r.Moves (estopRecords r) := by
  refine .of_both (.refl _) (Changes.raise ?_ _)
  exact ((Quiet.addHoldAll _ _ _).changes.trans (Changes.cutForEstop _ _)).trans (Quiet.raiseCuts _ _ _ _).changes

end Moves

end Sys2Proof.Machine
end

section
namespace Sys2Proof.Machine

/-! ## The laws of the warrants: O8, O10 and O11 -/

section Laws

variable {Q : Records → Prop}

theorem Records.Moves.keep (hQ : ∀ r r' : Records, r.Move r' → Q r → Q r') {r r' : Records}
    (hm : r.Moves r') (h : Q r) :
    Q r' := by
  induction hm with
  | refl => exact h
  | tail _ hm ih => exact hQ _ _ hm ih

/-- A law that a start meets and every move keeps, every command keeps. -/
theorem RecordsLaw.of_moves (start : ∀ pins n, Q (startRecords pins n))
    (hQ : ∀ r r' : Records, r.Move r' → Q r → Q r') : RecordsLaw Q :=
  have keep : ∀ {r r' : Records}, r.Moves r' → Q r → Q r' := fun hm => hm.keep hQ
  have world : ∀ {r : Records} (W : World), W.map = r.world.map → Q r → Q { r with world := W } := fun _ hW =>
    keep (.of_world hW)
  have notices : ∀ {r : Records} (n : Vector Notice 15), Q r → Q { r with fleet := { r.fleet with notices := n } } :=
    fun {r} n => keep (.of_changes (Quiet.of_eq (F := r.fleet) (G := { r.fleet with notices := n })
      r.world rfl rfl).changes)
  have handled : ∀ {o : Origin} {a b x : Nat} {r : Records} {f : SlotId → Warrant → Fleet × Answer},
      (∀ i w, (r.fleet.slots[i]).warrant = some w → Changes r.world r.fleet (f i w).1) → Q r →
      Q (withHandle o a b x r fun i w => ({ r with fleet := (f i w).1 }, (f i w).2)).1 := fun hf h =>
    withHandle_keeps h fun i w hw => keep (.of_changes (hf i w hw)) h
  { raise := fun _ d => keep (.of_changes (Quiet.raise _ _ d).changes)
    start := start
    tick := fun _ => world _ rfl
    report := fun o q _ => keep (.reportRule o q)
    ask := fun o q _ => keep (.askRule o q)
    extend := fun _ _ _ => handled fun _ _ hw => .extendWarrant hw _ _
    trim := fun _ _ _ => handled fun _ _ hw => .trimWarrant hw _ _
    release := fun _ _ _ => handled fun _ _ _ => .releaseWarrant _ _ _ _
    confirm := fun o q _ => keep (.confirmRule o q)
    hold := fun o q _ => keep (.holdRule o q)
    unhold := fun o q _ => keep (.unholdRule o q)
    clear := fun o q _ => keep (.clearRule o q)
    wind := fun _ _ _ => keep (.withWind _)
    peek := fun _ _ r h => by
      unfold peekRule
      split
      · exact hQ r _ (.track rfl (.refl _)) h
      · exact h
    notices := fun _ _ _ => notices _
    marks := fun o q _ => keep (.marksRule o q)
    setrun := fun o q _ => keep (.setrunRule o q)
    setbay := fun o q _ => keep (.setbayRule o q)
    truncate := fun o q _ => keep (.truncateRule o q)
    setzone := fun o q _ => keep (.setzoneRule o q)
    setcar := fun o q _ => keep (.setcarRule o q)
    setcarNo := fun o q _ => keep (.setcarNoRule o q)
    lock := fun o q _ => keep (.lockRule o q)
    unlock := fun o q _ => keep (.unlockRule o q)
    service := fun o q _ => keep (.serviceRule o q)
    ceiling := fun o q _ => keep (.ceilingRule o q)
    setwind := fun _ _ _ h => assuredOnly_keeps h (by split; exacts [world _ rfl h, h])
    cond := fun _ _ _ h => assuredOnly_keeps h (by
      split
      · split
        · exact keep (.changeCondition _ _) h
        · exact h
      · exact h)
    mask := fun _ _ _ h => assuredOnly_keeps h (notices _ h)
    maint := fun _ _ _ h => assuredOnly_keeps h (by
      split
      · exact h
      · split
        · exact h
        · exact world _ rfl h)
    endmaint := fun _ _ _ h => assuredOnly_keeps h (by split; exacts [h, world _ rfl h])
    restore := fun o q _ => keep (.restoreRule o q)
    restart := fun _ _ _ h => assuredOnly_keeps h (keep (.of_changes (Changes.restartFleet _ _)) h)
    estop := fun _ => keep .estopRecords
    estopLine := fun _ _ => world _ rfl
    keyReleased := fun _ => keep (.of_both (.refl _) (Changes.cutForKey _ _))
    key := fun _ _ => world _ rfl
    storm := fun _ => keep (.withWind _)
    windTimeout := fun _ => keep .takeWindTimeout
    windLine := fun _ _ _ => world _ rfl
    condition := fun n v _ => keep (.changeCondition n v)
    conditionLine := fun _ _ _ => world _ rfl
    mute := fun _ c => keep (.of_changes (Changes.becomeMute _ _ c))
    expire := fun _ i => keep (.of_changes (Changes.expire _ _ i)) }

theorem startRecords_slot (pins : Pins) (n : Nat) (i : SlotId) :
    ((startRecords pins n).fleet.slots[i]).warrant = none := by
  simp [startRecords, Fleet.initial]

theorem startRecords_car (pins : Pins) (n : Nat) (c : CarId) :
    (startRecords pins n).fleet.cars[c] = Carriage.initial := by
  simp [startRecords, Fleet.initial]

theorem startRecords_book (pins : Pins) (n : Nat) : (startRecords pins n).fleet.Book :=
  (startRecords_kept (zones := False) pins n).book

end Laws

/-! ### The book (R66, R77) -/

section Book

variable {W : World} {F G : Fleet}

theorem Quiet.book (h : Quiet W F G) (hb : F.Book) : G.Book :=
  BookAkin.book ⟨h.current, h.stack hb, .of_eq h.slots⟩ hb

/-- Every change keeps the book. -/
theorem Change.book (h : Change W F G) (hb : F.Book) : G.Book := by
  cases h with
  | quiet h => exact h.book hb
  | edited i w w' hw slot slots cars edit =>
    refine BookAkin.book ⟨fun c => by rw [cars], fun c => by rw [cars], ⟨fun j => ?_, fun j => ?_⟩⟩ hb <;>
      by_cases hj : j = i
    · subst hj; rw [slot]
    · rw [slots j hj]
    · subst hj; rw [slot, hw]; exact congrArg some edit.role
    · rw [slots j hj]
  | left i w r hw retired => exact retired.book hb hw
  | resumed i w w' hw slot slots same car cars free fresh =>
    exact hb.promote slots hw slot same (by rw [fresh.granted]; decide) (free hb).1
      (fun d hd => by rw [cars d hd]; exact ⟨rfl, rfl⟩) (by rw [car]) (by rw [car])
  | suspended i c w hx slot slots car cars =>
    obtain ⟨hcur, hw, rfl, -⟩ := hb.currentOf_some hx
    exact hb.setAside slots hw slot rfl rfl hcur (fun d hd => by rw [cars d hd]; exact ⟨rfl, rfl⟩)
      (by rw [car]) (by rw [car])
  | issued i w hfree slot slots car cars none calm locked fresh =>
    exact hb.issued slots hfree slot (by rw [fresh.granted]; decide) (hb.current_none_of_currentOf none)
      (fun d hd => by rw [cars d hd]; exact ⟨rfl, rfl⟩) (by rw [car]) (by rw [car])

/-- With no warrant live, no carriage has a handle. -/
theorem Fleet.Book.bare (hb : F.Book) (hw : ∀ i : SlotId, (F.slots[i]).warrant = none) (c : CarId) :
    (F.cars[c]).current = none ∧ (F.cars[c]).stack = [] := by
  have hlive : ∀ x, F.live x = none := fun x => by
    unfold Fleet.live
    split
    · exact hw _
    · rfl
  refine ⟨Option.eq_none_iff_forall_ne_some.mpr fun x hx => ?_, List.eq_nil_iff_forall_not_mem.mpr fun x hx => ?_⟩
  · obtain ⟨w, h, -⟩ := hb.current c x hx
    rw [hlive] at h
    cases h
  · obtain ⟨w, h, -⟩ := hb.stacked c x hx
    rw [hlive] at h
    cases h

theorem Fleet.Book.of_bare (hw : ∀ i : SlotId, (F.slots[i]).warrant = none)
    (hc : ∀ c : CarId, (F.cars[c]).current = none ∧ (F.cars[c]).stack = []) : F.Book where
  current c x hx := by rw [(hc c).1] at hx; cases hx
  stacked c x hx := by rw [(hc c).2] at hx; cases hx
  owned i w h := by rw [hw] at h; cases h
  nodup c := by rw [(hc c).2]; exact .nil

/-- No warrant is live while the map is UNLOCKED (R77). -/
def Records.Unlocked (r : Records) : Prop := r.world.map.locked = false →
  ∀ i : SlotId, (r.fleet.slots[i]).warrant = none

/-- While no warrant is live, only an issue makes one so, and that on a LOCKED map. -/
theorem Change.unlocked (h : Change W F G) (hu : W.map.locked = false → ∀ i : SlotId, (F.slots[i]).warrant = none) :
    W.map.locked = false → ∀ i : SlotId, (G.slots[i]).warrant = none := by
  intro hl
  have hn := hu hl
  cases h with
  | quiet h => rw [h.slots]; exact hn
  | edited i w w' hw => rw [hn i] at hw; cases hw
  | left i w r hw => rw [hn i] at hw; cases hw
  | resumed i w w' hw => rw [hn i] at hw; cases hw
  | suspended i c w hx => have hw := (Fleet.slot_of_currentOf hx).1; rw [hn i] at hw; cases hw
  | issued i w hfree slot slots car cars none calm locked => rw [hl] at locked; cases locked

variable {r r' : Records}

theorem Records.Move.unlocked (h : r.Move r') (hu : r.Unlocked) : r'.Unlocked := by
  unfold Records.Unlocked at hu ⊢
  cases h with
  | fleet world h => rw [world]; exact h.unlocked hu
  | track fleet h => rw [fleet, h.locked]; exact hu
  | edited h => rw [h.slots]; exact fun _ => hu h.was
  | relocked fleet runs lengths bare => rw [fleet]; exact bare

theorem Records.Move.book (h : r.Move r') (hu : r.Unlocked) (hb : r.fleet.Book) : r'.fleet.Book := by
  cases h with
  | fleet world h => exact h.book hb
  | track fleet h => rw [fleet]; exact hb
  | edited h =>
    have hw := hu h.was
    refine .of_bare (by rw [h.slots]; exact hw) fun c => ?_
    rcases h.handles c with ⟨e1, e2⟩ | e
    · rw [e1, e2]; exact hb.bare hw c
    · exact e
  | relocked fleet => rw [fleet]; exact hb

theorem book_law : RecordsLaw (fun r => r.fleet.Book ∧ r.Unlocked) :=
  .of_moves (fun pins n => ⟨startRecords_book pins n, fun _ => startRecords_slot pins n⟩)
    fun _ _ hm h => ⟨hm.book h.2 h.1, hm.unlocked h.2⟩

end Book

/-- Settles O8: each kind of move of the records keeps the book, and every command is a chain of moves. -/
theorem warrantBookKept : Obligations.WarrantBookKept := by
  intro s t h ht
  exact book_law.step ht h

/-! ### What a change leaves of a warrant and of its carriage -/

section Fields

variable {W : World} {F G : Fleet} {c : CarId}

/-- Where a live warrant of a changed fleet comes from. -/
inductive Comes (W : World) (F : Fleet) (j : SlotId) (u : Warrant) : Prop
  | kept (h : (F.slots[j]).warrant = some u)
  | edited (u0 : Warrant) (h : (F.slots[j]).warrant = some u0) (edit : Edit W F u0 u)
  | fresh (h : Fresh W F u)
  | setAside (u0 : Warrant) (h : (F.slots[j]).warrant = some u0)
      (e : u = { u0 with state := .suspended, expiry := none })

theorem Change.comes (h : Change W F G) {j : SlotId} {u : Warrant} (hu : (G.slots[j]).warrant = some u) :
    Comes W F j u := by
  have at' : ∀ {i : SlotId} {s : Slot}, G.slots[i] = s → j = i → s.warrant = some u := by
    rintro i s e rfl
    rw [← e]
    exact hu
  have other : ∀ {i : SlotId}, F.sameSlotsBut G i → j ≠ i → Comes W F j u := fun hs hj =>
    .kept (by rw [← hs j hj]; exact hu)
  cases h with
  | quiet h => exact .kept (by rw [← h.slots]; exact hu)
  | edited i w w' hw slot slots cars edit =>
    by_cases hj : j = i
    · obtain rfl := Option.some.inj (at' slot hj)
      exact .edited w (hj ▸ hw) edit
    · exact other slots hj
  | left i w r hw retired =>
    by_cases hj : j = i
    · cases at' retired.slot hj
    · exact other retired.slots hj
  | resumed i w w' hw slot slots same car cars free fresh =>
    by_cases hj : j = i
    · obtain rfl := Option.some.inj (at' slot hj)
      exact .fresh fresh
    · exact other slots hj
  | suspended i c w hx slot slots =>
    by_cases hj : j = i
    · exact .setAside w (hj ▸ (Fleet.slot_of_currentOf hx).1) (Option.some.inj (at' slot hj)).symm
    · exact other slots hj
  | issued i w hfree slot slots car cars none calm locked fresh =>
    by_cases hj : j = i
    · subst hj
      obtain rfl := Option.some.inj (slot.symm.trans hu)
      exact .fresh fresh
    · exact other slots hj

/-- A change that is not quiet leaves of each carriage all but its handles, its front and its retire record. -/
theorem Change.quiet_or (h : Change W F G) : Quiet W F G ∨ ∀ c : CarId, (G.cars[c]).cfg = (F.cars[c]).cfg ∧
    (G.cars[c]).pose = (F.cars[c]).pose ∧ (G.cars[c]).state = (F.cars[c]).state := by
  have one : ∀ {d : CarId} {k : Carriage}, G.cars[d] = k → F.sameCarsBut G d →
      (k.cfg = (F.cars[d]).cfg ∧ k.pose = (F.cars[d]).pose ∧ k.state = (F.cars[d]).state) → ∀ c : CarId,
      (G.cars[c]).cfg = (F.cars[c]).cfg ∧ (G.cars[c]).pose = (F.cars[c]).pose ∧
        (G.cars[c]).state = (F.cars[c]).state := by
    intro d k hd hs hk c
    by_cases hc : c = d
    · subst hc; rw [hd]; exact hk
    · rw [hs c hc]; exact ⟨rfl, rfl, rfl⟩
  cases h with
  | quiet h => exact .inl h
  | edited i w w' hw slot slots cars => exact .inr fun c => by rw [cars]; exact ⟨rfl, rfl, rfl⟩
  | left i w r hw retired => exact .inr (one retired.car retired.cars ⟨rfl, rfl, rfl⟩)
  | resumed i w w' hw slot slots same car cars => exact .inr (one car cars ⟨rfl, rfl, rfl⟩)
  | suspended i c w hx slot slots car cars => exact .inr (one car cars ⟨rfl, rfl, rfl⟩)
  | issued i w hfree slot slots car cars => exact .inr (one car cars ⟨rfl, rfl, rfl⟩)

theorem Change.cfg (h : Change W F G) (c : CarId) : (G.cars[c]).cfg = (F.cars[c]).cfg :=
  h.quiet_or.elim (fun q => q.cfg c) fun k => (k c).1

end Fields

/-! ### The fields (R65, R75, R102) -/

section FieldLaws

variable {W : World} {F G : Fleet} {c : CarId} {r r' : Records}

/-- No live warrant's ceiling exceeds its carriage's max speed. -/
def Fleet.Capped (F : Fleet) : Prop := ∀ (i : SlotId) (w : Warrant), (F.slots[i]).warrant = some w →
  w.ceiling ≤ (F.cars[w.carriage]).cfg.maxSpeed

theorem Edit.carriage {w w' : Warrant} (h : Edit W F w w') : w'.carriage = w.carriage :=
  (Prod.mk.inj h.role).1

theorem Change.capped (h : Change W F G) (hc : F.Capped) : G.Capped := by
  intro j u hu
  rw [h.cfg]
  rcases h.comes hu with h0 | ⟨u0, h0, edit⟩ | fresh | ⟨u0, h0, rfl⟩
  · exact hc j u h0
  · rw [edit.carriage]
    exact edit.ceiling.elim (fun e => e.trans (hc j u0 h0)) id
  · exact fresh.ceiling
  · exact hc j u0 h0

theorem Records.Move.capped (h : r.Move r') (hu : r.Unlocked) (hc : r.fleet.Capped) : r'.fleet.Capped := by
  cases h with
  | fleet world h => exact h.capped hc
  | track fleet h => rw [fleet]; exact hc
  | edited h =>
    intro i w hw
    rw [h.slots, hu h.was i] at hw
    cases hw
  | relocked fleet => rw [fleet]; exact hc

/-- A live warrant has an expiry tick exactly while it is GRANTED. -/
def Fleet.Timed (F : Fleet) : Prop := ∀ (i : SlotId) (w : Warrant), (F.slots[i]).warrant = some w →
  (w.expiry.isSome = true ↔ w.state = .granted)

theorem Change.timed (h : Change W F G) (ht : F.Timed) : G.Timed := by
  intro j u hu
  rcases h.comes hu with h0 | ⟨u0, h0, edit⟩ | fresh | ⟨u0, h0, rfl⟩
  · exact ht j u h0
  · exact edit.expiry (ht j u0 h0)
  · exact iff_of_true fresh.expiry fresh.granted
  · exact iff_of_false nofun nofun

theorem Records.Move.timed (h : r.Move r') (ht : r.fleet.Timed) : r'.fleet.Timed := by
  cases h with
  | fleet world h => exact h.timed ht
  | track fleet h => rw [fleet]; exact ht
  | edited h => unfold Fleet.Timed; rw [h.slots]; exact ht
  | relocked fleet => rw [fleet]; exact ht

theorem Change.wellOrdered (h : Change W F G) (ho : WellOrdered W F) : WellOrdered W G where
  warrants j u hu := by
    have hrun : runOf W G u.carriage = runOf W F u.carriage := by simp only [runOf, h.cfg]
    rw [hrun]
    rcases h.comes hu with h0 | ⟨u0, h0, edit⟩ | fresh | ⟨u0, h0, rfl⟩
    · exact ho.warrants j u h0
    · rw [edit.carriage]
      exact edit.ordered ho (ho.warrants j u0 h0)
    · exact fresh.ordered ho
    · obtain ⟨h1, h2, h3, h4, h5, h6⟩ := ho.warrants j u0 h0
      exact ⟨h1, h2, h3, h4, h5, h6⟩
  lengths := ho.lengths
  runs hl c hc := by
    have hrun : runOf W G c = runOf W F c := by simp only [runOf, h.cfg]
    rw [hrun]
    rcases h.quiet_or with q | k
    · exact (q.configured c hc).elim (ho.runs hl c) fun e => e ho
    · exact ho.runs hl c (by rw [Carriage.configured, (k c).2.2] at hc; exact hc)
  poses c p hp := by
    rcases h.quiet_or with q | k
    · exact (q.pose c p hp).elim id (ho.poses c p)
    · exact ho.poses c p (by rw [← (k c).2.1]; exact hp)
  book := h.book ho.book
  unlocked := h.unlocked ho.unlocked

theorem SameTrack.length {m m' : TrackMap} (h : SameTrack m m') (r : RunId) :
    (m'.runs[r]).length = (m.runs[r]).length := by
  have := h.last r
  unfold Run.last at this
  omega

theorem SameTrack.lengthsInRange {m m' : TrackMap} (h : SameTrack m m') (hm : m.lengthsInRange) :
    m'.lengthsInRange := by
  rw [lengthsInRange_iff] at hm ⊢
  intro i b hb
  have hs : b.shape ∈ (m'.runs[i]).bays.map Bay.shape := List.mem_map_of_mem hb
  rw [h.shapes i] at hs
  obtain ⟨b0, hb0, e⟩ := List.mem_map.mp hs
  rw [← e]
  exact hm i b0 hb0

/-- The order reads of a run its length alone. -/
theorem Ordered.of_length {a b : Run} {w : Warrant} (h : Ordered a w) (hl : b.length = a.length) : Ordered b w := by
  have hlast : b.last = a.last := by simp only [Run.last, hl]
  obtain ⟨h1, h2, h3, h4, h5, h6⟩ := h
  exact ⟨by rwa [hlast], by rwa [hlast], by rwa [hlast], h4, h5, by rwa [hlast, hl]⟩

theorem Records.Move.wellOrdered (h : r.Move r') (ho : WellOrdered r.world r.fleet) :
    WellOrdered r'.world r'.fleet := by
  have hu : r'.Unlocked := h.unlocked ho.unlocked
  have hb : r'.fleet.Book := h.book ho.unlocked ho.book
  cases h with
  | fleet world h => rw [world]; exact h.wellOrdered ho
  | track fleet h =>
    have hlen : ∀ c, (runOf r'.world r.fleet c).length = (runOf r.world r.fleet c).length := fun c => h.length _
    refine ⟨fun i w hw => ?_, h.lengthsInRange ho.lengths, fun hl c hc => ?_, by rw [fleet]; exact ho.poses, hb, hu⟩
    · rw [fleet] at hw ⊢
      exact (ho.warrants i w hw).of_length (hlen _)
    · rw [fleet] at hc ⊢
      rw [hlen]
      exact ho.runs (h.locked ▸ hl) c hc
  | edited h =>
    have hw := ho.unlocked h.was
    refine ⟨fun i w hi => ?_, h.lengths ho.lengths, fun hl => ?_, fun c p hp => ?_, hb, hu⟩
    · rw [h.slots, hw i] at hi
      cases hi
    · rw [h.stays] at hl
      cases hl
    · exact (h.poses c p hp).elim id (ho.poses c p)
  | relocked fleet runs lengths bare =>
    have hrun : ∀ c, runOf r'.world r.fleet c = runOf r.world r.fleet c := fun c => by simp only [runOf, runs]
    refine ⟨fun i w hw => ?_, ?_, fun hl c hc => ?_, by rw [fleet]; exact ho.poses, hb, hu⟩
    · rw [fleet] at hw ⊢
      rw [hrun]
      exact ho.warrants i w hw
    · have := ho.lengths
      unfold TrackMap.lengthsInRange at this ⊢
      rw [runs]
      exact this
    · rw [fleet] at hc ⊢
      rw [hrun]
      exact lengths hl c hc

theorem capped_law : RecordsLaw (fun r => r.fleet.Capped ∧ r.Unlocked) :=
  .of_moves (fun pins n => ⟨fun i w hw => (by rw [startRecords_slot] at hw; cases hw),
    fun _ => startRecords_slot pins n⟩)
    fun _ _ hm h => ⟨hm.capped h.2 h.1, hm.unlocked h.2⟩

theorem timed_law : RecordsLaw (fun r => r.fleet.Timed) :=
  .of_moves (fun _ _ i w hw => by rw [startRecords_slot] at hw; cases hw) fun _ _ hm => hm.timed

theorem wellOrdered_law : RecordsLaw (fun r => WellOrdered r.world r.fleet) :=
  .of_moves (fun pins n =>
    { warrants := fun i w hw => by rw [startRecords_slot] at hw; cases hw
      lengths := (lengthsInRange_iff _).mpr fun i b hb => by simp [startRecords, World.initial, Run.initial] at hb
      runs := nofun
      poses := fun c p hp => by rw [startRecords_car] at hp; cases hp
      book := startRecords_book pins n
      unlocked := fun _ => startRecords_slot pins n })
    fun _ _ hm => hm.wellOrdered

end FieldLaws

theorem State.orderLaw_iff (s : State) : s.orderLaw ↔ WellOrdered s.records.world s.records.fleet :=
  ⟨fun ⟨h1, h2, h3, h4, h5, h6⟩ => ⟨h1, h2, h3, h4, h5, h6⟩, fun ⟨h1, h2, h3, h4, h5, h6⟩ => ⟨h1, h2, h3, h4, h5, h6⟩⟩

/-- Settles O10: every kind of move of the records keeps each of the three laws. -/
theorem warrantFieldsKept : Obligations.WarrantFieldsKept := by
  intro s t ht
  refine ⟨fun h => capped_law.step ht h, fun h => timed_law.step ht h, fun h => ?_⟩
  rw [State.orderLaw_iff] at h ⊢
  exact wellOrdered_law.step ht h

/-! ### The mark of a TRIPPED carriage's current warrant (R156) -/

section Marks

variable {W : World} {F G : Fleet} {c : CarId} {r r' : Records}

/-- The current warrant of each TRIPPED carriage carries retire-on-stop. -/
def Fleet.TrippedMarked (F : Fleet) : Prop := ∀ c : CarId, (F.cars[c]).state = .tripped → F.MarkedCurrent c

/-- A carriage that keeps its current handle, and whose warrants keep their marks, keeps a marked current warrant. -/
theorem Fleet.MarkedCurrent.of_slots (h : F.MarkedCurrent c) (hb : G.Book)
    (hcur : (G.cars[c]).current = (F.cars[c]).current)
    (hs : ∀ (j : SlotId) (u : Warrant), (G.slots[j]).warrant = some u → u.carriage = c →
      (G.slots[j]).generation = (F.slots[j]).generation ∧
      ∃ u0, (F.slots[j]).warrant = some u0 ∧ (u0.retireOnStop.isSome = true → u.retireOnStop.isSome = true)) :
    G.MarkedCurrent c := by
  intro j u hu
  obtain ⟨hx, hw, hc, -⟩ := hb.currentOf_some hu
  obtain ⟨hg, u0, hu0, hm⟩ := hs j u hw hc
  have hh : G.handleOf j = F.handleOf j := by simp only [Fleet.handleOf, hg]
  exact hm (h j u0 (currentOf_of_handle (by rw [← hcur, hx, hh]) hu0))

theorem Change.trippedMarked (h : Change W F G) (hb : F.Book) (hm : F.TrippedMarked) : G.TrippedMarked := by
  have hG := h.book hb
  intro c ht
  have same : ∀ {j : SlotId} {u : Warrant}, G.slots[j] = F.slots[j] → (G.slots[j]).warrant = some u →
      (G.slots[j]).generation = (F.slots[j]).generation ∧
        ∃ u0, (F.slots[j]).warrant = some u0 ∧ (u0.retireOnStop.isSome = true → u.retireOnStop.isSome = true) :=
    fun {j u} e hu => ⟨by rw [e], u, by rw [← e]; exact hu, id⟩
  -- The change is of a warrant of another carriage.
  have elsewhere : ∀ {i : SlotId} {d : CarId} {u : Warrant}, F.sameSlotsBut G i → F.sameCarsBut G d →
      (G.slots[i]).warrant = some u → u.carriage = d → c ≠ d → G.MarkedCurrent c := by
    rintro i d u hs hcs hu rfl hcd
    have hk := hcs c hcd
    refine Fleet.MarkedCurrent.of_slots (hm c (by rw [← hk]; exact ht)) hG (by rw [hk]) fun j v hv hvc => ?_
    refine same (hs j ?_) hv
    rintro rfl
    rw [hu] at hv
    cases hv
    exact hcd hvc.symm
  cases h with
  | quiet h =>
    refine Fleet.MarkedCurrent.of_slots ((h.tripped c ht).elim (hm c) id) hG (h.current c) fun j u hu _ => ?_
    exact same (by rw [h.slots]) hu
  | edited i w w' hw slot slots cars edit =>
    refine Fleet.MarkedCurrent.of_slots (hm c (by rw [← cars]; exact ht)) hG (by rw [cars]) fun j u hu _ => ?_
    by_cases hj : j = i
    · subst hj
      rw [slot] at hu ⊢
      obtain rfl := Option.some.inj hu
      exact ⟨rfl, w, hw, edit.mark⟩
    · exact same (slots j hj) hu
  | left i w r hw retired =>
    by_cases hc : c = w.carriage
    · subst hc
      rw [retired.car] at ht
      intro j u hu
      obtain ⟨hx, hv, -⟩ := hG.currentOf_some hu
      rw [retired.car] at hx
      have hj : j ≠ i := by
        rintro rfl
        rw [retired.slot] at hv
        cases hv
      simp only [] at hx
      split at hx
      · cases hx
      · have hs := retired.slots j hj
        have hh : G.handleOf j = F.handleOf j := by simp only [Fleet.handleOf, hs]
        exact hm _ ht j u (currentOf_of_handle (by rw [hx, hh]) (by rw [← hs]; exact hv))
    · have hk := retired.cars c hc
      refine Fleet.MarkedCurrent.of_slots (hm c (by rw [← hk]; exact ht)) hG (by rw [hk]) fun j u hu _ => ?_
      refine same (retired.slots j ?_) hu
      rintro rfl
      rw [retired.slot] at hu
      cases hu
  | resumed i w w' hw slot slots hsame car cars free fresh =>
    by_cases hc : c = w.carriage
    · subst hc
      rw [car] at ht
      exact absurd ht (free hb).2
    · exact elsewhere slots cars (by rw [slot]) hsame hc
  | suspended i d w hx slot slots car cars =>
    by_cases hc : c = d
    · subst hc
      intro j u hu
      obtain ⟨hx, -⟩ := hG.currentOf_some hu
      rw [car] at hx
      cases hx
    · obtain ⟨-, -, hwc, -⟩ := hb.currentOf_some hx
      exact elsewhere slots cars (congrArg Slot.warrant slot) hwc hc
  | issued i w hfree slot slots car cars none calm locked fresh =>
    by_cases hc : c = w.carriage
    · subst hc
      rw [car] at ht
      exact absurd ht calm
    · exact elsewhere slots cars slot rfl hc

theorem Records.Move.trippedMarked (h : r.Move r') (hu : r.Unlocked) (hb : r.fleet.Book) (hm : r.fleet.TrippedMarked) :
    r'.fleet.TrippedMarked := by
  cases h with
  | fleet world h => exact h.trippedMarked hb hm
  | track fleet h => rw [fleet]; exact hm
  | edited h =>
    intro c _ i w hx
    have hw := (Fleet.slot_of_currentOf hx).1
    rw [h.slots, hu h.was i] at hw
    cases hw
  | relocked fleet => rw [fleet]; exact hm

theorem marked_law : RecordsLaw (fun r => r.fleet.TrippedMarked ∧ r.fleet.Book ∧ r.Unlocked) :=
  .of_moves (fun pins n => ⟨fun c ht => (by rw [startRecords_car] at ht; cases ht), startRecords_book pins n,
    fun _ => startRecords_slot pins n⟩)
    fun _ _ hm h => ⟨hm.trippedMarked h.2.2 h.2.1 h.1, hm.book h.2.2 h.2.1, hm.unlocked h.2.2⟩

end Marks

/-- Settles O11: a carriage becomes TRIPPED only once its current warrant is marked, and a TRIPPED one takes no new
current warrant. -/
theorem trippedWarrantMarked : Obligations.TrippedWarrantMarked := by
  intro s t h ht
  have hm := marked_law.step ht ⟨fun c hc i w => h.1 c i w hc, h.2⟩
  exact ⟨fun c i w hc => hm.1 c hc i w, hm.2⟩

end Sys2Proof.Machine
end

section
namespace Sys2Proof.Machine

/-! ## Requests that name a handle (R76) -/

section Handles

variable {s : State} {i : Instr} {p : Port} {f : Frame} {rest : List Frame} {r : Records}
  {k : SlotId → Warrant → Records × Answer} {o : Origin} {slot generation point : Nat} {n : SlotId} {w : Warrant}

theorem withHandle_badForm (h : 47 < slot ∨ 1048575 < point) :
    withHandle o slot generation point r k = (r, plain .badForm) := by
  unfold withHandle
  split
  · rfl
  · rename_i j hj
    by_cases hs : slot < 48
    · rw [if_pos (h.resolve_left (by omega))]
    · rw [inTable_of_ge (by omega)] at hj
      cases hj

/-- A slot and a point in range leave the checks of the handle. -/
theorem withHandle_inRange (hp : point ≤ 1048575) : withHandle o n.val generation point r k =
    match r.fleet.live { slot := n, generation := BitVec.ofNat 8 generation } with
    | none => (r, plain .stale)
    | some w => if owns o w then k n w else (r, plain .notOwner) := by
  rw [withHandle, inTable_val]
  exact if_neg (by omega)

theorem withHandle_stale (hp : point ≤ 1048575)
    (hl : r.fleet.live { slot := n, generation := BitVec.ofNat 8 generation } = none) :
    withHandle o n.val generation point r k = (r, plain .stale) := by
  rw [withHandle_inRange hp, hl]

theorem withHandle_live (hp : point ≤ 1048575)
    (hl : r.fleet.live { slot := n, generation := BitVec.ofNat 8 generation } = some w) :
    withHandle o n.val generation point r k = if owns o w then k n w else (r, plain .notOwner) := by
  rw [withHandle_inRange hp, hl]

/-- Every origin but another station of the Open Port owns the warrant. -/
theorem owns_iff {station : Byte} :
    owns (originOf p station) w = true ↔ (p = .openPort → w.origin = .openPort station) := by
  cases p <;> simp [originOf, owns]

/-- A request on a live handle that its origin owns comes under its own rule. -/
theorem withHandle_owned {station : Byte} (hs : slot = n.val) (hp : point ≤ 1048575)
    (hl : r.fleet.live { slot := n, generation := BitVec.ofNat 8 generation } = some w)
    (ho : p = .openPort → w.origin = .openPort station) :
    withHandle (originOf p station) slot generation point r k = k n w := by
  rw [hs, withHandle_live hp hl, if_pos (owns_iff.mpr ho)]

end Handles

/-- Settles O43: the four requests share the checks of `withHandle`. -/
theorem handleChecksRefuse : Obligations.HandleChecksRefuse := by
  intro i p f rest s slot generation point h hi
  have refused : ∀ st, (∀ k, withHandle (originOf p f.station) slot generation point s.records k =
      (s.records, plain st)) →
      exec i s = .next (s.answer p f rest s.records (plain st)) := by
    intro st hk
    rcases hi with ⟨rfl, hx⟩ | ⟨rfl, hx⟩ | ⟨rfl, hx, rfl⟩ | ⟨rfl, hx, rfl⟩ <;> exact h.answers hx (hk _)
  refine ⟨fun hr => refused _ fun k => withHandle_badForm hr, ?_⟩
  rintro n rfl hp
  refine ⟨fun hl => refused _ fun k => withHandle_stale hp hl, fun w hl hport hw => refused _ fun k => ?_⟩
  rw [withHandle_live hp hl, if_neg]
  rw [owns_iff]
  exact fun ho => hw (ho hport)

/-- Settles O47. -/
theorem confirmRemovesPoint : Obligations.ConfirmRemovesPoint := by
  intro p f rest s q i w h hx hs F hl ho
  have hw : (F.slots[i]).warrant = some w := Fleet.slot_of_live hl
  refine ⟨fun hc => h.answers hx ?_, fun hc => h.answers hx ?_⟩ <;>
    refine (withHandle_owned hs (Nat.zero_le _) hl ho).trans ?_
  · rw [if_pos (Option.isNone_iff_eq_none.mpr hc)]
    rfl
  · rw [if_neg (by simpa using hc), Fleet.modWarrant_of_live hw]
    rfl

end Sys2Proof.Machine
end

section
namespace Sys2Proof.Machine

/-! ## trim and release (R84 to R86, R90) -/

section Floors

variable {W : World} {F : Fleet} {w : Warrant} {i : SlotId}

/-- The floor of a cut of a warrant that is not SUSPENDED (R84, R90). -/
theorem cutFloor_of_current (W : World) (F : Fleet) (h : w.state ≠ .suspended) : cutFloor W F w =
    notBehindRear w.dir
      (if (F.cars[w.carriage]).holds.reversal = true then
        (runOf W F w.carriage).roundOut w.dir ((F.cars[w.carriage]).lead w.dir)
       else roundedFront W F w.carriage w.dir) w.rear := by
  have hs : (w.state != .suspended) = true := by simpa using h
  simp only [cutFloor, Fleet.inRunOut, hs, Bool.and_true, runOutFloor]

/-- The floor of a trim in the words of R84. -/
theorem trimFloor_eq (W : World) (F : Fleet) (w : Warrant) : trimFloor W F w =
    notBehindRear w.dir
      (if w.state = .suspended then w.rear
       else if (F.cars[w.carriage]).holds.reversal = true then
        (runOf W F w.carriage).roundOut w.dir ((F.cars[w.carriage]).lead w.dir)
       else roundedFront W F w.carriage w.dir) w.rear := by
  unfold trimFloor
  by_cases h : w.state = .suspended
  · simp only [if_pos h, notBehindRear, ite_self]
  · simp only [if_neg h, cutFloor_of_current W F h]

theorem trimReply_of_slot {G : Fleet} {s : Slot} (st : Status) (hs : G.slots[i] = s) (hw : s.warrant = some w) :
    trimReply G i st = { status := st, body := be 3 w.limit.toNat ++ confirmBytes w.confirm ++ be 2 w.ceiling } := by
  simp only [trimReply, hs, hw]

/-- A point that is nearer is trimmed to the limit taken. -/
theorem trimWarrant_nearer {new : Int} (hn : beyond w.dir w.limit new = true) : trimWarrant W F i w new =
    ((if trimTaken W F w new = w.limit then F else shorten W F i (trimTaken W F w new)),
      trimReply (if trimTaken W F w new = w.limit then F else shorten W F i (trimTaken W F w new)) i
        (if trimTaken W F w new = new then .done else .clamped)) := by
  rw [trimWarrant, hn]
  rfl

theorem beyond_ne {d : Dir} {x y : Int} (h : beyond d x y = true) : x ≠ y := by
  cases d <;> simp only [beyond_iff] at h <;> omega

end Floors

/-- Settles O45: the limit taken is that of `trimTaken`, and the shortening does the rest. -/
theorem trimShortensWarrant : Obligations.TrimShortensWarrant := by
  intro p f rest s q i w h hx hs hp W F hl ho c run stop floor taken
  have hw : (F.slots[i]).warrant = some w := Fleet.slot_of_live hl
  have ht : trimTaken W F w q.point = taken := by
    simp only [trimTaken, trimFloor_eq]
    rfl
  have rule : ∀ {G a}, trimWarrant W F i w q.point = (G, a) →
      exec (.trim p) s = .next (s.answer p f rest (s.records.withFleet G) a) := fun {G a} hr => by
    refine h.answers hx ((withHandle_owned hs hp hl ho).trans ?_)
    rw [show trimWarrant s.records.world s.records.fleet i w q.point = (G, a) from hr]
    rfl
  refine ⟨fun hn => rule ?_, fun hn hk => rule ?_,
    fun hn hk => ⟨shorten W F i taken, rule ?_, shorten_shortened taken hw⟩⟩
  · rw [trimWarrant, hn]
    rfl
  · rw [trimWarrant_nearer hn, ht, hk, if_pos rfl, if_neg (beyond_ne hn), trimReply_of_slot .clamped rfl hw]
  · rw [trimWarrant_nearer hn, ht, if_neg hk, trimReply_of_slot _ (shorten_shortened taken hw).slot rfl]

/-- Settles O46: `stopsFirst` tells the cut that marks from the retirement. -/
theorem releaseRetiresOrMarks : Obligations.ReleaseRetiresOrMarks := by
  intro p f rest s q i w h hx hs W F hl ho c v stops
  have hw : (F.slots[i]).warrant = some w := Fleet.slot_of_live hl
  have hv : (F.cars[c]).lastV = v := by
    simp only [v, Carriage.lastV, Carriage.lastSpeed]
    cases (F.cars[c]).last <;> rfl
  have hstops : stopsFirst F w = true ↔ 5 < v ∧ stops := by rw [stopsFirst_iff, ← hv]
  have rule : ∀ {G a}, releaseWarrant W F i w = (G, a) →
      exec (.release p) s = .next (s.answer p f rest (s.records.withFleet G) a) := fun {G a} hr => by
    refine h.answers hx ((withHandle_owned hs (Nat.zero_le _) hl ho).trans ?_)
    rw [show releaseWarrant s.records.world s.records.fleet i w = (G, a) from hr]
    rfl
  constructor
  · intro hn
    refine ⟨_, retire_retiredWhole .released hw, rule ?_⟩
    refine if_neg fun hf => ?_
    obtain ⟨h5, hst⟩ := hstops.mp hf
    exact hn.elim (fun hle => absurd h5 (by omega)) fun hns => hns hst
  · intro hv hst run stop floor limit
    refine ⟨_, rule (if_pos (hstops.mpr ⟨hv, hst⟩)), ?_⟩
    have hstate : w.state ≠ .suspended := by
      rcases hst with e | ⟨e, -⟩ <;> rw [e] <;> decide
    have hlimit : cutLimit W F w = limit := by
      simp only [cutLimit, cutFloor_of_current W F hstate]
      rfl
    rw [← hlimit]
    exact markWarrant_marked .released hw

end Sys2Proof.Machine
end

section
namespace Sys2Proof.Machine

/-! ## extend (R82, R83) -/

section Resettled

variable {W : World} {F P : Fleet} {i : SlotId} {w : Warrant}

/-- The lists after a warrant's entry has followed it (R67). -/
theorem resettle_occupancy (hw : (P.slots[i]).warrant = some w) (q : RunId) : (resettle W P i).occupancy[q] =
    if q = (P.cars[w.carriage]).cfg.run then
      insertEntry (entryOf (runOf W P w.carriage) (P.handleOf i) w)
        ((P.occupancy[(P.cars[w.carriage]).cfg.run]).filter (fun e => e.handle.slot != i))
    else P.occupancy[q] := by
  rw [resettle_of_live hw, rezone_occupancy, Fleet.putEntry_get]

/-- The holders after a warrant's entry has followed it (R68). -/
theorem resettle_rezoned (hw : (P.slots[i]).warrant = some w) : Rezoned W P (resettle W P i) w.carriage := by
  rw [resettle_of_live hw]
  exact Rezoned.of_holders (rezone_rezoned W (P.putEntry W i w) w.carriage) (Fleet.putEntry_holders W P i w)

end Resettled

section Extend

variable {W : World} {F : Fleet} {w : Warrant} {i : SlotId} {target : Nat}

/-- A hold set is not empty when some cause stands. -/
theorem HoldSet.not_isEmpty_iff (h : HoldSet) : (!h.isEmpty) = true ↔ ∃ x, h.has x = true := by
  rw [Bool.not_eq_true', ← Bool.not_eq_true, h.isEmpty_iff]
  simp

theorem WalkResult.status_eq (res : WalkResult) :
    res.status = if res.blocker = none then .done else .partially := by
  unfold WalkResult.status
  split
  · rename_i h; rw [if_pos h]
  · rename_i h; rw [if_neg (by rw [h]; exact Option.some_ne_none _)]

/-- The reply to a grant reads the warrant in its slot. -/
theorem grantReply_of_slot {G : Fleet} {res : WalkResult} {long : Prop} [Decidable long]
    (hw : (G.slots[i]).warrant = some w) : grantReply G i res (decide long) =
      { status := if res.blocker = none then .done else .partially
        body := handleBytes (some (G.handleOf i)) ++ be 3 w.limit.toNat ++ confirmBytes w.confirm ++ be 2 w.ceiling ++
          be 3 w.lifetime ++ be 1 (if long then 1 else 0) ++ be 1 (codeOr0 Blocker.code res.blocker) } := by
  simp only [grantReply, hw, WalkResult.status_eq, bit, decide_eq_true_eq]

theorem noRefusal_cons {cause : Prop} {st : Status} {rows : List (Prop × Status)} :
    noRefusal ((cause, st) :: rows) ↔ ¬cause ∧ noRefusal rows := by
  simp only [noRefusal, List.forall_mem_cons]

/-- The refusals of an `extend` before its walk (R82). -/
def extendRows (W : World) (F : Fleet) (w : Warrant) (target : Nat) : List (Prop × Status) :=
  [(w.state = .suspended ∨ w.retireOnStop ≠ none, .badState),
   (∃ x : Cause, (F.cars[w.carriage]).holds.has x = true, .held),
   (beyond w.dir (clampTarget (runOf W F w.carriage) target) w.limit = false, .badTarget)]

theorem extendWarrant_refused {st : Status} (h : firstRefusal (extendRows W F w target) st) :
    extendWarrant W F i w target = (F, plain st) := by
  have hheld := HoldSet.not_isEmpty_iff (F.cars[w.carriage]).holds
  have hmark : w.retireOnStop ≠ none ↔ w.retireOnStop.isSome = true := Option.isSome_iff_ne_none.symm
  simp only [extendRows, firstRefusal, ← hheld, hmark, ← Bool.not_eq_true'] at h
  simp only [extendWarrant]
  rcases h with ⟨h1, rfl⟩ | ⟨h1, ⟨h2, rfl⟩ | ⟨h2, ⟨h3, rfl⟩ | ⟨-, hf⟩⟩⟩
  · rw [if_pos h1]
  · rw [if_neg h1, if_pos h2]
  · rw [if_neg h1, if_neg h2, if_pos h3]
  · exact hf.elim

theorem extendWarrant_walks {x : Int} {res : WalkResult} {G : Fleet} (h : noRefusal (extendRows W F w target))
    (hx : clampTarget (runOf W F w.carriage) target = x) (hres : walk W F (extendPlan W F i w x) = res)
    (hG : resettle W (F.modWarrant i (fun _ => extended W F w x res)) i = G) : extendWarrant W F i w target =
      if res.gains (extendPlan W F i w x) then
        (G, grantReply G i res (decide ((runOf W F w.carriage).last < (target : Int))))
      else (F, blockedBy res.blocker) := by
  subst hx hres hG
  have hheld := HoldSet.not_isEmpty_iff (F.cars[w.carriage]).holds
  have hmark : w.retireOnStop ≠ none ↔ w.retireOnStop.isSome = true := Option.isSome_iff_ne_none.symm
  obtain ⟨h1, h2, h3, -⟩ : _ ∧ _ ∧ _ ∧ noRefusal [] := by simpa only [extendRows, noRefusal_cons] using h
  rw [hmark] at h1
  rw [← hheld] at h2
  rw [← Bool.not_eq_true'] at h3
  rw [extendWarrant]
  simp only [if_neg h1, if_neg h2, if_neg h3]

end Extend

/-- Settles O44: the refusals row by row, and the grant as the entry and the holdings follow the warrant written. -/
theorem extendLengthensWarrant : Obligations.ExtendLengthensWarrant := by
  intro p f rest s q i w h hx hs hp W F hl ho c run target plan res rows
  have hw : (F.slots[i]).warrant = some w := Fleet.slot_of_live hl
  have rule : ∀ {G a}, extendWarrant W F i w q.point = (G, a) →
      exec (.extend p) s = .next (s.answer p f rest (s.records.withFleet G) a) := fun {G a} hr => by
    refine h.answers hx ((withHandle_owned hs hp hl ho).trans ?_)
    rw [show extendWarrant s.records.world s.records.fleet i w q.point = (G, a) from hr]
    rfl
  refine ⟨fun st hst => rule (extendWarrant_refused hst), fun hno hg => rule ?_, fun hno hg => ?_⟩
  · exact (extendWarrant_walks hno rfl rfl rfl).trans (if_neg (by rw [Bool.not_eq_true]; exact hg))
  · intro confirm ceiling w'
    let P := F.putWarrant i (some w')
    have hslot : P.slots[i] = { F.slots[i] with warrant := some w' } := by rw [Fleet.putWarrant_get, if_pos rfl]
    have hput : (P.slots[i]).warrant = some w' := by rw [hslot]
    have hh : P.handleOf i = F.handleOf i := F.putWarrant_handleOf i i _
    have hh' : (resettle W P i).handleOf i = F.handleOf i := by rw [← hh]; simp only [Fleet.handleOf, resettle_slots]
    have hocc := resettle_occupancy (W := W) hput
    have hG : resettle W (F.modWarrant i (fun _ => extended W F w target res)) i = resettle W P i :=
      congrArg (fun P => resettle W P i) (Fleet.modWarrant_of_live hw _)
    refine ⟨resettle W P i, rule ?_, by rw [resettle_slots, hslot], fun j hj => ?_, by rw [resettle_cars]; rfl, ?_,
      fun r hr => ?_, Rezoned.of_holders (P := P) (resettle_rezoned (w := w') hput) rfl, by rw [resettle_notices]; rfl⟩
    · refine (extendWarrant_walks hno rfl rfl hG).trans ((if_pos hg).trans (Prod.ext rfl ?_))
      refine (grantReply_of_slot (w := w') (by rw [resettle_slots, hput])).trans ?_
      rw [hh']
      rfl
    · rw [resettle_slots, Fleet.putWarrant_get, if_neg hj]
    · refine (hocc _).trans ((if_pos rfl).trans ?_)
      rw [hh]
      rfl
    · exact (hocc r).trans (if_neg hr)

end Sys2Proof.Machine
end

section
namespace Sys2Proof.Machine

/-! ## ask (R77 to R80, R117 to R121) -/

section Ask

variable {W : World} {F : Fleet} {c : CarId} {k : Cls} {i : SlotId} {p : Port} {st : Byte}

@[simp] theorem clsOf_code (k : Cls) : clsOf k.code = some k := by cases k <;> rfl

theorem clsOf_eq_none_iff (x : Nat) : clsOf x = none ↔ x < 1 ∨ 4 < x := by
  match x with
  | 0 => simp [clsOf]
  | 1 => simp [clsOf]
  | 2 => simp [clsOf]
  | 3 => simp [clsOf]
  | 4 => simp [clsOf]
  | n + 5 => simp [clsOf]

/-- The lowest free slot is the one that `ask` is issued (R64). -/
theorem freeSlot_eq (hi : (F.slots[i]).warrant = none) (hlow : ∀ j : SlotId, j < i → (F.slots[j]).warrant ≠ none) :
    F.freeSlot = some i := by
  cases hj : F.freeSlot with
  | none => exact absurd (List.find?_eq_none.mp hj i (List.mem_finRange i)) (by simpa using hi)
  | some j =>
    have hfree := Fleet.freeSlot_free F j hj
    obtain ⟨-, as, bs, hl, has⟩ := List.find?_eq_some_iff_append.mp hj
    have hord := List.pairwise_lt_finRange 48
    have hmem := List.mem_finRange i
    rw [hl] at hord hmem
    rcases List.mem_append.mp hmem with h | h
    · have hn := has i h
      rw [hi] at hn
      cases hn
    · rcases List.mem_cons.mp h with rfl | h
      · rfl
      · exact absurd hfree (hlow j (List.rel_of_pairwise_cons (List.pairwise_append.mp hord).2.1 h))

theorem freeSlot_eq_none_iff (F : Fleet) : F.freeSlot.isNone = true ↔ ∀ i : SlotId, (F.slots[i]).warrant ≠ none := by
  simp [Fleet.freeSlot, Option.isNone_iff_eq_none]

theorem heldBeyondTrip_iff (h : HoldSet) : h.heldBeyondTrip = true ↔ ∃ x : Cause, x ≠ .trip ∧ h.has x = true := by
  rw [HoldSet.heldBeyondTrip, HoldSet.not_isEmpty_iff]
  simp only [HoldSet.has_remove, Bool.and_eq_true, decide_eq_true_eq]

/-- A current warrant stands in the way of an `ask` that does not preempt it (R77, R79). -/
theorem hasWarrant_iff (F : Fleet) (c : CarId) (k : Cls) :
    ((F.currentOf c).isSome = true ∧ (!preempts (F.currentOf c) k) = true) ↔
      ∃ i w, F.currentOf c = some (i, w) ∧ (k ≠ .emergency ∨ w.cls = .emergency) := by
  cases F.currentOf c with
  | none => simp
  | some x =>
    obtain ⟨i, w⟩ := x
    simp only [Option.isSome_some, preempts, true_and, Bool.not_eq_true', Bool.and_eq_false_iff, beq_eq_false_iff_ne,
      bne_eq_false_iff_eq, Option.some.injEq, Prod.mk.injEq]
    exact ⟨fun h => ⟨i, w, ⟨rfl, rfl⟩, h⟩, fun ⟨_, _, ⟨rfl, rfl⟩, h⟩ => h⟩

/-- The refusals of an `ask` before its walk (R77). -/
def askRows (W : World) (F : Fleet) (p : Port) (c : CarId) (k : Cls) (target : Nat) : List (Prop × Status) :=
  [(W.map.locked = false, .unlocked),
   ((F.cars[c]).state = .unconfigured ∨ (F.cars[c]).state = .offline, .offline),
   (k = .emergency ∧ p = .openPort, .portDenied),
   (∃ x : Cause, x ≠ .trip ∧ (F.cars[c]).holds.has x = true, .held),
   ((F.cars[c]).state = .tripped, .tripped),
   (∃ i w, F.currentOf c = some (i, w) ∧ (k ≠ .emergency ∨ w.cls = .emergency), .hasWarrant),
   (∀ i : SlotId, (F.slots[i]).warrant ≠ none, .tableFull),
   (F.currentOf c ≠ none ∧ 3 ≤ (F.cars[c]).stack.length, .stackFull),
   (∃ pz, (F.cars[c]).pose = some pz ∧ pz.lower ≤ clampTarget (runOf W F c) target ∧
      clampTarget (runOf W F c) target ≤ pz.upper, .noMove)]

/-- Rows 2 to 8 are the checks of `askRefusal`, in its order (R77). -/
theorem askRefusal_eq (F : Fleet) (c : CarId) (k : Cls) : askRefusal F (originOf p st) c k =
    open Classical in
    if (F.cars[c]).state = .unconfigured ∨ (F.cars[c]).state = .offline then some .offline
    else if k = .emergency ∧ p = .openPort then some .portDenied
    else if ∃ x : Cause, x ≠ .trip ∧ (F.cars[c]).holds.has x = true then some .held
    else if (F.cars[c]).state = .tripped then some .tripped
    else if ∃ i w, F.currentOf c = some (i, w) ∧ (k ≠ .emergency ∨ w.cls = .emergency) then some .hasWarrant
    else if ∀ i : SlotId, (F.slots[i]).warrant ≠ none then some .tableFull
    else if F.currentOf c ≠ none ∧ 3 ≤ (F.cars[c]).stack.length then some .stackFull
    else none := by
  have hport : originOf p st ≠ .assured ↔ p = .openPort := by cases p <;> simp [originOf]
  simp only [← heldBeyondTrip_iff, ← hasWarrant_iff, ← freeSlot_eq_none_iff, askRefusal, hport]
  by_cases hw : (F.currentOf c).isSome = true ∧ (!preempts (F.currentOf c) k) = true
  · simp only [if_pos hw]
  · have hpre : preempts (F.currentOf c) k = true ↔ F.currentOf c ≠ none := by
      cases hx : F.currentOf c with
      | none => simp [preempts]
      | some x => simpa [hx] using hw
    simp only [hpre]

theorem askRule_inRange {q : AskBody} (hc : q.carriage = c.val) (hk : q.cls = k.code) (ht : q.target ≤ 1048575)
    (o : Origin) (r : Records) : askRule o q r =
      if !r.world.map.locked then (r, plain .unlocked)
      else
        match askRefusal r.fleet o c k, (r.fleet.cars[c]).pose with
        | some st, _ => (r, plain st)
        | none, some pz =>
          ({ r with fleet := (askWalk r.world r.fleet o c pz k q.target q.lifetime).1 },
            (askWalk r.world r.fleet o c pz k q.target q.lifetime).2)
        | none, none => (r, plain .offline) := by
  rw [askRule, hc, hk, inTable_val, clsOf_code]
  exact if_neg (by omega)

/-- No target within the extent has a direction, and one beyond it has that of the end it lies beyond (R78). -/
theorem askDir_eq_none_iff (pz : Pose) (target : Int) :
    askDir pz target = none ↔ pz.lower ≤ target ∧ target ≤ pz.upper := by
  unfold askDir
  split
  · simp only [reduceCtorEq, false_iff]; omega
  · split
    · simp only [reduceCtorEq, false_iff]; omega
    · simp only [true_iff]; omega

/-- An `ask` to which a row applies is refused with the status of the first that does. -/
theorem askRule_refused {q : AskBody} {r : Records} {status : Status} (hc : q.carriage = c.val) (hk : q.cls = k.code)
    (ht : q.target ≤ 1048575) (h : firstRefusal (askRows r.world r.fleet p c k q.target) status) :
    askRule (originOf p st) q r = (r, plain status) := by
  have checked : ∀ {x}, r.world.map.locked ≠ false → askRefusal r.fleet (originOf p st) c k = some x →
      askRule (originOf p st) q r = (r, plain x) := fun hl hx => by
    rw [askRule_inRange hc hk ht, hx, if_neg (by simpa using hl)]
  simp only [askRows, firstRefusal] at h
  rcases h with ⟨h1, rfl⟩ | ⟨h1, ⟨h2, rfl⟩ | ⟨h2, ⟨h3, rfl⟩ | ⟨h3, ⟨h4, rfl⟩ | ⟨h4, ⟨h5, rfl⟩ | ⟨h5, ⟨h6, rfl⟩ | ⟨h6,
    ⟨h7, rfl⟩ | ⟨h7, ⟨h8, rfl⟩ | ⟨h8, ⟨⟨pz, hpz, hin⟩, rfl⟩ | ⟨-, hf⟩⟩⟩⟩⟩⟩⟩⟩⟩
  · rw [askRule_inRange hc hk ht, h1]
    rfl
  · exact checked h1 (by rw [askRefusal_eq, if_pos h2])
  · exact checked h1 (by rw [askRefusal_eq, if_neg h2, if_pos h3])
  · exact checked h1 (by rw [askRefusal_eq, if_neg h2, if_neg h3, if_pos h4])
  · exact checked h1 (by rw [askRefusal_eq, if_neg h2, if_neg h3, if_neg h4, if_pos h5])
  · exact checked h1 (by rw [askRefusal_eq, if_neg h2, if_neg h3, if_neg h4, if_neg h5, if_pos h6])
  · exact checked h1 (by rw [askRefusal_eq, if_neg h2, if_neg h3, if_neg h4, if_neg h5, if_neg h6, if_pos h7])
  · exact checked h1 (by rw [askRefusal_eq, if_neg h2, if_neg h3, if_neg h4, if_neg h5, if_neg h6,
      if_neg h7, if_pos h8])
  · have hx : askRefusal r.fleet (originOf p st) c k = none := by
      rw [askRefusal_eq, if_neg h2, if_neg h3, if_neg h4, if_neg h5, if_neg h6, if_neg h7, if_neg h8]
    rw [askRule_inRange hc hk ht, hx, hpz, if_neg (by simpa using h1)]
    simp only [askWalk, (askDir_eq_none_iff pz _).mpr hin]
  · exact hf.elim

theorem askPlan_of_pose {pz : Pose} (hpz : (F.cars[c]).pose = some pz) (d : Dir) (x : Int) : askPlan F c k d x =
    { car := c, cls := k, dir := d, base := pz.lead d, target := x,
      oldSpan := none, ownSpan := none, met := none } := by
  simp only [askPlan, Carriage.lead, hpz]

/-- An `ask` to which no row applies walks, and is granted the track it gains (R78 to R80). -/
theorem askRule_walks {q : AskBody} {r : Records} {pz : Pose} {d : Dir} {x : Int} {plan : WalkPlan}
    {res : WalkResult} (hc : q.carriage = c.val) (hk : q.cls = k.code) (ht : q.target ≤ 1048575)
    (h : noRefusal (askRows r.world r.fleet p c k q.target)) (hpz : (r.fleet.cars[c]).pose = some pz)
    (hx : clampTarget (runOf r.world r.fleet c) q.target = x) (hd : askDir pz x = some d)
    (hi : r.fleet.freeSlot = some i)
    (hplan : askPlan r.fleet c k d x = plan) (hres : walk r.world r.fleet plan = res) : askRule (originOf p st) q r =
      if res.gains plan then
        (r.withFleet (grant r.world r.fleet i c (originOf p st) k d x (lifetimeTaken q.lifetime) res),
          grantReply (grant r.world r.fleet i c (originOf p st) k d x (lifetimeTaken q.lifetime) res) i res
            (decide ((runOf r.world r.fleet c).last < (q.target : Int))))
      else (r, blockedBy res.blocker) := by
  obtain ⟨h1, h2, h3, h4, h5, h6, h7, h8, -⟩ : _ ∧ _ ∧ _ ∧ _ ∧ _ ∧ _ ∧ _ ∧ _ ∧ _ := by
    simpa only [askRows, noRefusal_cons] using h
  have hn : askRefusal r.fleet (originOf p st) c k = none := by
    rw [askRefusal_eq, if_neg h2, if_neg h3, if_neg h4, if_neg h5, if_neg h6, if_neg h7, if_neg h8]
  rw [askRule_inRange hc hk ht, hn, hpz, if_neg (by simpa using h1)]
  subst hx hplan hres
  simp only [askWalk, hd, hi]
  split <;> rfl

end Ask

/-- Settles O42: the checks of `askRefusal` are the rows of R77's table, one after the other. -/
theorem askRefusedInOrder : Obligations.AskRefusedInOrder := by
  intro p f rest s q h hx W F refused
  constructor
  · intro hq
    refine h.answers hx ?_
    unfold askRule
    split
    · rename_i c k hc hk
      have hkc := clsOf_eq_none_iff q.cls
      rw [hk] at hkc
      rcases hq with hq | hq | hq | hq
      · rw [inTable_of_ge (by omega)] at hc
        cases hc
      · rw [if_pos hq]
        rfl
      · exact absurd (hkc.mpr (.inl hq)) (Option.some_ne_none k)
      · exact absurd (hkc.mpr (.inr hq)) (Option.some_ne_none k)
    · rfl
  intro c k hc hk ht car target rows
  constructor
  · exact fun st hst => h.answers hx (askRule_refused hc hk ht hst)
  · intro pz d hpz hno hd plan hg
    obtain ⟨-, -, -, -, -, -, h7, -, h9, -⟩ : _ ∧ _ ∧ _ ∧ _ ∧ _ ∧ _ ∧ _ ∧ _ ∧ _ ∧ _ := by
      simpa only [rows, noRefusal_cons] using hno
    rw [← freeSlot_eq_none_iff, Option.isNone_iff_eq_none] at h7
    obtain ⟨i, hi⟩ := Option.ne_none_iff_exists'.mp h7
    have hlow : ¬(pz.lower ≤ target ∧ target ≤ pz.upper) := fun hin => h9 ⟨pz, hpz, hin⟩
    have hdir : askDir pz target = some d := by
      unfold askDir
      by_cases hup : pz.upper < target
      · rw [if_pos hup, hd.mpr hup]
      · rw [if_neg hup, if_pos (by omega)]
        cases d with
        | up => exact absurd (hd.mp rfl) hup
        | down => rfl
    exact h.answers hx ((askRule_walks hc hk ht hno hpz rfl hdir hi (askPlan_of_pose hpz d _) rfl).trans
      (if_neg (by rw [Bool.not_eq_true]; exact hg)))

end Sys2Proof.Machine
end

section
namespace Sys2Proof.Machine

/-! ### What a grant leaves (R80, R119, R121) -/

section Grants

variable {W : World} {F G : Fleet} {c : CarId} {i j : SlotId} {w : Warrant} {o : Origin} {k : Cls} {d : Dir}
  {target : Int}
  {lifetime : Nat} {res : WalkResult}

/-- `G` is `F` after the free slot `i` was issued to the warrant `w`, current on its carriage (R80). -/
structure Issued (W : World) (F : Fleet) (i : SlotId) (w : Warrant) (G : Fleet) : Prop where
  slot : G.slots[i] = { generation := (F.slots[i]).generation + 1, warrant := some w }
  slots : F.sameSlotsBut G i
  car : G.cars[w.carriage] =
    { F.cars[w.carriage] with current := some { slot := i, generation := (F.slots[i]).generation + 1 } }
  cars : F.sameCarsBut G w.carriage
  list : G.occupancy[(F.cars[w.carriage]).cfg.run] =
    insertEntry (entryOf (runOf W F w.carriage) { slot := i, generation := (F.slots[i]).generation + 1 } w)
      ((F.occupancy[(F.cars[w.carriage]).cfg.run]).filter (fun e => e.handle.slot != i))
  lists : ∀ r : RunId, r ≠ (F.cars[w.carriage]).cfg.run → G.occupancy[r] = F.occupancy[r]
  zones : Rezoned W F G w.carriage
  notices : G.notices = F.notices

theorem resettle_issued (W : World) (F : Fleet) (i : SlotId) (w : Warrant) :
    Issued W F i w (resettle W (issuedTo F i w) i) := by
  let P := issuedTo F i w
  have hslot := issuedTo_slot F i w
  have hput : (P.slots[i]).warrant = some w := congrArg Slot.warrant hslot
  have hh : P.handleOf i = { slot := i, generation := (F.slots[i]).generation + 1 } := by
    rw [Fleet.handleOf, show P.slots[i] = _ from hslot]
  have hcar : P.cars[w.carriage] = { F.cars[w.carriage] with current := some (P.handleOf i) } :=
    Fleet.modCar_get_self _ _ _
  have hcfg : (P.cars[w.carriage]).cfg = (F.cars[w.carriage]).cfg := by rw [hcar]
  have hrun : runOf W P w.carriage = runOf W F w.carriage := by simp only [runOf, hcfg]
  have hocc := resettle_occupancy (W := W) hput
  simp only [hcfg, hrun, hh] at hocc
  refine ⟨by rw [resettle_slots, hslot], fun l hl => ?_, by rw [resettle_cars, ← hh]; exact hcar, fun e he => ?_,
    (hocc _).trans (if_pos rfl), fun r hr => (hocc r).trans (if_neg hr), (resettle_rezoned hput).of_holders rfl,
    by rw [resettle_notices]; rfl⟩
  · rw [resettle_slots, issuedTo_slots F i w l hl]
  · rw [resettle_cars]
    exact Fleet.modCar_get_other _ _ he

theorem issue_issued : Issued W F i (issuedWarrant W F c o k d target lifetime res)
    (issue W F i c o k d target lifetime res) := by
  rw [issue_eq]
  exact resettle_issued W F i _

/-- A warrant's issue reads its carriage's configuration and extent alone. -/
theorem issuedWarrant_congr (hg : (G.cars[c]).cfg = (F.cars[c]).cfg) (hp : (G.cars[c]).pose = (F.cars[c]).pose) :
    issuedWarrant W G c o k d target lifetime res = issuedWarrant W F c o k d target lifetime res := by
  have hrun : runOf W G c = runOf W F c := by simp only [runOf, hg]
  have hrear : rearFor W G c d = rearFor W F c d := by simp only [rearFor, hrun, Carriage.trail, hp]
  simp only [issuedWarrant, hrear, fullCeiling, leastCeiling, hrun, hg, Carriage.lead, hp]

theorem frontNow_of_last {pz : Pose} (hl : (G.cars[c]).last = (F.cars[c]).last)
    (hg : (G.cars[c]).cfg = (F.cars[c]).cfg) (hp : (G.cars[c]).pose = some pz) (hs : G.supervising c = some (i, w)) :
    G.frontNow c =
      (F.cars[c]).last.bind (fun l => frontAt (F.cars[c]).cfg pz l.speed.natAbs (some w.dir)) := by
  simp only [Fleet.frontNow, Fleet.supervisionDir, hs, hl, hg, hp]
  cases (F.cars[c]).last <;> rfl

/-- The current warrant stands in its slot under the handle the carriage holds. -/
theorem currentOf_issued (h : Issued W F i w G) : G.currentOf w.carriage = some (i, w) := by
  refine currentOf_of_handle ?_ (congrArg Slot.warrant h.slot)
  rw [h.car, Fleet.handleOf, h.slot]

theorem reachedZones_refront (W : World) (F : Fleet) (c : CarId) :
    reachedZones W (refront F c) c = reachedZones W F c :=
  reachedZones_congr (by rw [refront_get, if_pos rfl]) (by rw [refront_get, if_pos rfl]) rfl

/-- The front of a fleet that is anew leaves the holders and what the carriage reaches. -/
theorem Rezoned.refront (h : Rezoned W F G c) : Rezoned W F (refront G c) c :=
  h.zoned (.inl ⟨rfl, reachedZones_refront W G c⟩)

/-- A run-out begins when the last report moves against the direction (R121). -/
theorem beginsRunOut_eq (car : Carriage) (d : Dir) : beginsRunOut car d =
    match d with
    | .up => decide ((car.last.map LastReport.speed).getD 0 < -5)
    | .down => decide (5 < (car.last.map LastReport.speed).getD 0) := by
  have hs : car.lastSpeed = (car.last.map LastReport.speed).getD 0 := by
    unfold Carriage.lastSpeed
    cases car.last <;> rfl
  rw [← hs]
  unfold beginsRunOut speedDir standstill
  by_cases hv : car.lastSpeed.natAbs ≤ 5
  · rw [decide_eq_true hv, if_pos rfl]
    cases d <;> exact (decide_eq_false (by omega)).symm
  · rw [decide_eq_false hv, if_neg Bool.false_ne_true]
    by_cases h0 : 0 < car.lastSpeed
    · rw [if_pos h0]
      cases d
      · exact (decide_eq_false (by omega)).symm
      · exact (decide_eq_true (by omega)).symm
    · rw [if_neg h0]
      cases d
      · exact (decide_eq_true (by omega)).symm
      · exact (decide_eq_false (by omega)).symm

end Grants

end Sys2Proof.Machine
end

section
namespace Sys2Proof.Machine

/-! ### The asks that are granted -/

section Granted

variable {W : World} {F G : Fleet} {c : CarId} {i j : SlotId} {w old : Warrant} {o : Origin} {k : Cls} {d : Dir}
  {target : Int} {lifetime : Nat} {res : WalkResult} {pz : Pose}

theorem grant_plain (h : F.currentOf c = none) : grant W F i c o k d target lifetime res =
    refront (issue W F i c o k d target lifetime res) c := by
  rw [grant, h]

theorem grant_preempts (h : F.currentOf c = some (j, old)) : grant W F i c o k d target lifetime res =
    refront (if beginsRunOut (issue W (suspend F c j) i c o k d target lifetime res).cars[c] d then
        (issue W (suspend F c j) i c o k d target lifetime res).addHold c .reversal
      else issue W (suspend F c j) i c o k d target lifetime res) c := by
  rw [grant, h]

theorem suspend_slot (hw : (F.slots[j]).warrant = some old) :
    (suspend F c j).slots[j] = { F.slots[j] with
      warrant := some { old with state := .suspended, expiry := none } } := by
  rw [suspend, Fleet.modCar_slots, Fleet.modWarrant_get, if_pos rfl, hw, Option.map_some]

theorem suspend_slots (F : Fleet) (c : CarId) (j : SlotId) : F.sameSlotsBut (suspend F c j) j := fun l hl => by
  rw [suspend, Fleet.modCar_slots, Fleet.modWarrant_get, if_neg hl]

theorem suspend_car (F : Fleet) (c : CarId) (j : SlotId) : (suspend F c j).cars[c] =
    { F.cars[c] with current := none, stack := (F.cars[c]).stack ++ [F.handleOf j] } := by
  rw [suspend, Fleet.modCar_get_self, Fleet.modWarrant_cars]

theorem suspend_cars (F : Fleet) (c : CarId) (j : SlotId) : F.sameCarsBut (suspend F c j) c := fun e he => by
  rw [suspend, Fleet.modCar_get_other _ _ he, Fleet.modWarrant_cars]

theorem handleOf_issued (h : Issued W F i w G) :
    G.handleOf i = { slot := i, generation := (F.slots[i]).generation + 1 } := by
  rw [Fleet.handleOf, h.slot]

theorem issuedWarrant_of_pose (hpz : (F.cars[c]).pose = some pz) : issuedWarrant W F c o k d target lifetime res =
    { carriage := c, origin := o, cls := k, dir := d, target := target, limit := res.limit, rear := rearFor W F c d,
      confirm := res.confirm
      ceiling := leastCeiling W F c k (F.cars[c]).cfg.maxSpeed ((runOf W F c).between (pz.lead d) res.limit)
      state := .granted, expiry := some (W.now + BitVec.ofNat 32 lifetime), lifetime := lifetime, retireOnStop := none,
      warned := false } := by
  simp only [issuedWarrant, fullCeiling, Carriage.lead, hpz]

/-- The rows of R77 do not stand for a carriage that reports, holds no cause but TRIP, and is asked for a point beyond
its extent, with a slot free and no current warrant in the way. -/
theorem askRows_pass {p : Port} {point : Nat} (hl : W.map.locked = true)
    (hs : (F.cars[c]).state = .standing ∨ (F.cars[c]).state = .moving) (hp : k = .emergency → p = .assured)
    (hh : ∀ x : Cause, x ≠ .trip → (F.cars[c]).holds.has x = false)
    (hc : ∀ j old, F.currentOf c = some (j, old) → k = .emergency ∧ old.cls ≠ .emergency ∧ (F.cars[c]).stack.length < 3)
    (hi : (F.slots[i]).warrant = none) (hpz : (F.cars[c]).pose = some pz)
    (hd : askDir pz (clampTarget (runOf W F c) point) = some d) : noRefusal (askRows W F p c k point) := by
  simp only [askRows, noRefusal_cons]
  refine ⟨by simp [hl], fun h => ?_, fun ⟨h, e⟩ => ?_, fun ⟨x, hx, h⟩ => ?_, fun h => ?_, fun ⟨j, old, h, e⟩ => ?_,
    fun h => h i hi, fun ⟨h, e⟩ => ?_, fun ⟨x, hx, h⟩ => ?_, nofun⟩
  · rcases hs with e | e <;> rw [e] at h <;> simp at h
  · rw [e] at hp
    cases hp h
  · rw [hh x hx] at h
    cases h
  · rcases hs with e | e <;> rw [e] at h <;> cases h
  · obtain ⟨h1, h2, -⟩ := hc j old h
    exact e.elim (fun hk => hk h1) h2
  · obtain ⟨⟨j, old⟩, hx⟩ := Option.ne_none_iff_exists'.mp h
    have := (hc j old hx).2.2
    omega
  · obtain rfl := Option.some.inj (hx.symm.trans hpz)
    rw [(askDir_eq_none_iff x _).mpr h] at hd
    cases hd

theorem askDir_of_beyond {x : Int}
    (h : (d = .up ∧ pz.upper < x) ∨ (d = .down ∧ x ≤ pz.upper ∧ x < pz.lower)) : askDir pz x = some d := by
  unfold askDir
  rcases h with ⟨rfl, h⟩ | ⟨rfl, h0, h⟩
  · rw [if_pos h]
  · rw [if_neg (by omega), if_pos h]

/-- `G` is `F` after the current warrant `old` of slot `j` was set aside and the free slot `i` issued to `w`, with the
run-out begun or not, before the front is anew (R119, R121). -/
structure Preempted (W : World) (F : Fleet) (c : CarId) (i j : SlotId) (old w : Warrant) (against : Bool) (G : Fleet) :
    Prop where
  slot : G.slots[i] = { generation := (F.slots[i]).generation + 1, warrant := some w }
  suspended : G.slots[j] = { F.slots[j] with warrant := some { old with state := .suspended, expiry := none } }
  slots : ∀ l : SlotId, l ≠ i → l ≠ j → G.slots[l] = F.slots[l]
  car : G.cars[c] = { F.cars[c] with
    current := some { slot := i, generation := (F.slots[i]).generation + 1 }
    stack := (F.cars[c]).stack ++ [F.handleOf j]
    holds := if against then (F.cars[c]).holds.add .reversal else (F.cars[c]).holds }
  cars : F.sameCarsBut G c
  list : G.occupancy[(F.cars[c]).cfg.run] =
    insertEntry (entryOf (runOf W F c) { slot := i, generation := (F.slots[i]).generation + 1 } w)
      ((F.occupancy[(F.cars[c]).cfg.run]).filter (fun e => e.handle.slot != i))
  lists : ∀ r : RunId, r ≠ (F.cars[c]).cfg.run → G.occupancy[r] = F.occupancy[r]
  zones : Rezoned W F G c
  notices : G.notices = F.notices

theorem issued_preempted (hold : (F.slots[j]).warrant = some old) (hij : i ≠ j) (hc : w.carriage = c)
    (h : Issued W (suspend F c j) i w G) : Preempted W F c i j old w false G := by
  subst hc
  have hcar := suspend_car F w.carriage j
  have hrun : runOf W (suspend F w.carriage j) w.carriage = runOf W F w.carriage := by simp only [runOf, hcar]
  have hi := suspend_slots F w.carriage j i hij
  obtain ⟨h1, h2, h3, h4, h5, h6, h7, h8⟩ := h
  simp only [hi, hcar, hrun] at h1 h3 h5 h6
  exact ⟨h1, (h2 j hij.symm).trans (suspend_slot hold), fun l hl hj => (h2 l hl).trans (suspend_slots F _ j l hj), h3,
    fun e he => (h4 e he).trans (suspend_cars F _ j e he), h5, h6, h7.of_holders rfl, h8⟩

/-- A run-out that begins adds REVERSAL to the carriage, and nothing else. -/
theorem Preempted.begins (h : Preempted W F c i j old w false G) (against : Bool) :
    Preempted W F c i j old w against (if against then G.addHold c .reversal else G) := by
  cases against with
  | false => exact h
  | true =>
    have hcar : (G.addHold c .reversal).cars[c] = { G.cars[c] with holds := (G.cars[c]).holds.add .reversal } :=
      Fleet.modCar_get_self _ _ _
    obtain ⟨h1, h2, h3, h4, h5, h6, h7, h8, h9⟩ := h
    refine ⟨h1, h2, h3, by rw [if_pos rfl, hcar, h4]; rfl, fun e he => ?_,
      h6, h7, h8.zoned (.inl ⟨rfl, reachedZones_congr ?_ ?_ rfl⟩), h9⟩ <;> rw [if_pos rfl]
    · rw [Fleet.addHold, Fleet.modCar_get_other _ _ he, h5 e he]
    · rw [hcar]
    · rw [hcar]

/-- In a run-out the warrant set aside supervises, else the warrant issued (R44). -/
theorem Preempted.frontNow {against : Bool} (h : Preempted W F c i j old w against G) (hpz : (F.cars[c]).pose = some pz)
    (hrev : (F.cars[c]).holds.reversal = false) : G.frontNow c = (F.cars[c]).last.bind (fun l =>
      frontAt (F.cars[c]).cfg pz l.speed.natAbs (some (if against then old.dir else w.dir))) := by
  have hh : G.handleOf i = { slot := i, generation := (F.slots[i]).generation + 1 } := by rw [Fleet.handleOf, h.slot]
  have hcur : G.currentOf c = some (i, w) := currentOf_of_handle (by rw [h.car, hh]) (congrArg Slot.warrant h.slot)
  have htop : G.topOf c = some (j, { old with state := .suspended, expiry := none }) := by
    refine topOf_of_handle ?_ (congrArg Slot.warrant h.suspended)
    rw [h.car, List.getLast?_concat, Fleet.handleOf, Fleet.handleOf, h.suspended]
  have front : ∀ {x : SlotId × Warrant}, G.supervising c = some x → G.frontNow c = (F.cars[c]).last.bind (fun l =>
      frontAt (F.cars[c]).cfg pz l.speed.natAbs (some x.2.dir)) := fun hs =>
    frontNow_of_last (by rw [h.car]) (by rw [h.car]) (by rw [h.car]; exact hpz) hs
  have hin : G.inRunOut c = (against || (F.cars[c]).holds.reversal) := by
    rw [Fleet.inRunOut, h.car]
    cases against <;> rfl
  cases against with
  | false => exact front (by rw [Fleet.supervising, hin, hrev, hcur]; rfl)
  | true =>
    exact front (x := (j, { old with state := .suspended, expiry := none })) (by rw [Fleet.supervising, hin, htop]; rfl)

end Granted

/-- Settles O40: the issue of the free slot, and the front of the warrant issued. -/
theorem askGrantsWarrant : Obligations.AskGrantsWarrant := by
  intro p f rest s q c k i pz d h hx hc hk ht hl W F car run target plan res life ceiling hd w hstate hport hholds hnone
    hfree hlow hpz hdir hg
  have hask := askDir_of_beyond hdir
  let G0 := issue W F i c (originOf p f.station) k d target life res
  have hiss : Issued W F i w G0 := by
    have hw : issuedWarrant W F c (originOf p f.station) k d target life res = w := issuedWarrant_of_pose hpz
    rw [← hw]
    exact issue_issued
  let G := refront G0 c
  have hgrant : grant W F i c (originOf p f.station) k d target (lifetimeTaken q.lifetime) res = G := grant_plain hnone
  have hno := askRows_pass (p := p) hl hstate hport hholds (fun j old hj => by rw [hnone] at hj; cases hj)
    hfree hpz hask
  have hlast : G0.cars[c] = { car with current := some hd } := hiss.car
  have hcur : G0.currentOf c = some (i, w) := currentOf_issued hiss
  have hsup : G0.supervising c = some (i, w) := by
    rw [supervising_of_not_reversal, hcur]
    rw [hlast]
    exact hholds .reversal (by decide)
  have hfront := frontNow_of_last (G := G0) (F := F) (pz := pz) (by rw [hlast]) (by rw [hlast])
    (by rw [hlast]; exact hpz) hsup
  have hh : G0.handleOf i = hd := handleOf_issued hiss
  refine ⟨G, ?_, hiss.slot, hiss.slots, ?_, fun e he => ?_, hiss.list, hiss.lists, hiss.zones.refront, hiss.notices⟩
  · refine h.answers hx ((askRule_walks hc hk ht hno hpz rfl hask (freeSlot_eq hfree hlow) (askPlan_of_pose hpz d _)
      rfl).trans ((if_pos hg).trans ?_))
    refine (congrArg (fun G => (s.records.withFleet G, grantReply G i res (decide (run.last < (q.target : Int)))))
      hgrant).trans (Prod.ext rfl ?_)
    refine (grantReply_of_slot (w := w) (congrArg Slot.warrant hiss.slot)).trans ?_
    rw [hh]
  · rw [refront_get, if_pos rfl, hfront, hlast]
  · rw [refront_get, if_neg he, hiss.cars e he]

/-- Settles O41: the current warrant set aside, the free slot issued, and the front of the one that supervises then. -/
theorem askPreemptsWarrant : Obligations.AskPreemptsWarrant := by
  intro f rest s q c i j old pz d h hx hc hk ht hl W F car run target plan res life ceiling hd w speed against hstate
    hholds hcur hcls hstack hfree hlow hpz hdir hg
  have hask := askDir_of_beyond hdir
  obtain ⟨hold, -⟩ := Fleet.slot_of_currentOf hcur
  have hij : i ≠ j := by rintro rfl; rw [hold] at hfree; cases hfree
  let G0 := issue W (suspend F c j) i c .assured .emergency d target life res
  have hpre0 : Preempted W F c i j old w false G0 := by
    have hw : issuedWarrant W (suspend F c j) c .assured .emergency d target life res = w :=
      (issuedWarrant_congr (by rw [suspend_car]) (by rw [suspend_car])).trans (issuedWarrant_of_pose hpz)
    exact issued_preempted hold hij rfl (hw ▸ issue_issued)
  have hagainst : beginsRunOut G0.cars[c] d = against := by
    rw [beginsRunOut_eq, hpre0.car] <;> rfl
  let G1 := if against then G0.addHold c .reversal else G0
  have hpre : Preempted W F c i j old w against G1 := hpre0.begins against
  have hfront := hpre.frontNow hpz (hholds .reversal (by decide))
  have hgrant : grant W F i c .assured .emergency d target (lifetimeTaken q.lifetime) res = refront G1 c := by
    rw [grant_preempts hcur]
    exact congrArg (fun b : Bool => refront (if b then G0.addHold c .reversal else G0) c) hagainst
  have hno := askRows_pass (p := .assured) hl hstate (fun _ => rfl) hholds (fun l x hlx => by
    obtain ⟨rfl, rfl⟩ := Prod.mk.inj (Option.some.inj (hcur.symm.trans hlx))
    exact ⟨rfl, hcls, hstack⟩) hfree hpz hask
  refine ⟨refront G1 c, ?_, hpre.slot, hpre.suspended, hpre.slots, ?_, fun e he => ?_, hpre.list, hpre.lists,
    hpre.zones.refront, hpre.notices⟩
  · refine h.answers hx ((askRule_walks (p := .assured) (st := f.station) hc hk ht hno hpz rfl hask
      (freeSlot_eq hfree hlow) (askPlan_of_pose hpz d _) rfl).trans ((if_pos hg).trans ?_))
    refine (congrArg (fun G => (s.records.withFleet G, grantReply G i res (decide (run.last < (q.target : Int)))))
      hgrant).trans (Prod.ext rfl ?_)
    refine (grantReply_of_slot (w := w) (congrArg Slot.warrant hpre.slot)).trans ?_
    rw [show G1.handleOf i = hd by rw [Fleet.handleOf, hpre.slot]]
  · rw [refront_get, if_pos rfl, hfront, hpre.car]
  · rw [refront_get, if_neg he, hpre.cars e he]

end Sys2Proof.Machine
end

section
namespace Sys2Proof.Machine

/-! ## Demands taken carriage by carriage (R104)

A turn of one carriage stays `Within` its own slots, so each carriage meets its turn as the demand found it. -/

/-- Slot `i` holds a warrant of carriage `c`. -/
def Fleet.Owns (F : Fleet) (c : CarId) (i : SlotId) : Prop :=
  ∃ w, (F.slots[i]).warrant = some w ∧ w.carriage = c

/-- The warrants of `P` are in order, each in a slot that its carriage had in `F`. -/
structure InPlace (F P : Fleet) : Prop where
  book : P.Book
  covers : ∀ c : CarId, P.Covers c (F.Owns c)

/-- Carriage `c`'s record and the slots it had in `F` are the same in `P` and `Q`. -/
structure SameFor (F : Fleet) (c : CarId) (P Q : Fleet) : Prop where
  car : Q.cars[c] = P.cars[c]
  slots : ∀ i : SlotId, F.Owns c i → Q.slots[i] = P.slots[i]

section Turns

variable {W : World} {F P Q G : Fleet} {c d : CarId} {i : SlotId} {w : Warrant} {h : Handle}

theorem Fleet.Owns.unique (hc : F.Owns c i) (hd : F.Owns d i) : c = d := by
  obtain ⟨w, hw, rfl⟩ := hc
  obtain ⟨u, hu, rfl⟩ := hd
  rw [hw, Option.some.injEq] at hu
  rw [hu]

theorem InPlace.refl (h : F.Book) : InPlace F F := ⟨h, fun _ _ w hw hc => ⟨w, hw, hc⟩⟩

theorem SameFor.refl (F : Fleet) (c : CarId) (P : Fleet) : SameFor F c P P := ⟨rfl, fun _ _ => rfl⟩

theorem SameFor.trans (h : SameFor F c P Q) (h' : SameFor F c Q G) : SameFor F c P G :=
  ⟨h'.car.trans h.car, fun i hi => (h'.slots i hi).trans (h.slots i hi)⟩

theorem SameFor.of_eq (hc : Q.cars = P.cars) (hs : Q.slots = P.slots) : SameFor F c P Q :=
  ⟨by rw [hc], fun _ _ => by rw [hs]⟩

/-- A live warrant in a slot that carriage `c` had is carriage `c`'s. -/
theorem InPlace.carriage_eq (h : InPlace F P) (hi : F.Owns c i) (hw : (P.slots[i]).warrant = some w) :
    w.carriage = c :=
  (h.covers w.carriage i w hw rfl).unique hi

/-- A carriage's turn leaves the others' records and slots. -/
theorem Within.sameFor (h : Within W c (F.Owns c) P Q) (hd : d ≠ c) : SameFor F d P Q :=
  ⟨h.cars d hd, fun i hi => h.slots i fun hc => hd (hi.unique hc)⟩

/-- A warrant of another carriage was live, in the same slot, before carriage `c`'s turn. -/
theorem Within.live_before (h : Within W c (F.Owns c) P Q) (hP : P.Book) (hw : (Q.slots[i]).warrant = some w)
    (hd : w.carriage ≠ c) : ∃ u, (P.slots[i]).warrant = some u ∧ u.carriage = w.carriage := by
  have hown := h.book.owned i w hw
  rw [h.cars w.carriage hd] at hown
  split at hown
  · obtain ⟨u, hu, hc, -⟩ := hP.stacked _ _ hown
    exact ⟨u, Fleet.slot_of_live hu, hc⟩
  · obtain ⟨u, hu, hc, -⟩ := hP.current _ _ hown
    exact ⟨u, Fleet.slot_of_live hu, hc⟩

theorem Within.inPlace (h : Within W c (F.Owns c) P Q) (hP : InPlace F P) : InPlace F Q := by
  refine ⟨h.book, fun d i w hw hd => ?_⟩
  by_cases hc : d = c
  · subst hc
    exact h.covers (hP.covers d) i w hw hd
  · obtain ⟨u, hu, hud⟩ := h.live_before hP.book hw (by rw [hd]; exact hc)
    exact hP.covers d i u hu (hud.trans hd)

/-! ### One handle after the other -/

variable {step : Fleet → Handle → Fleet × Bool} {hs : List Handle}

/-- Steps that each stay within a carriage do so together. -/
theorem Within.cutEach (hstep : ∀ (P : Fleet) (h : Handle), InPlace F P → F.Owns c h.slot →
      Within W c (F.Owns c) P (step P h).1)
    (hs : List Handle) (hown : ∀ h ∈ hs, F.Owns c h.slot) (hP : InPlace F P) :
    Within W c (F.Owns c) P (cutEach step c hs P).1 := by
  induction hs generalizing P with
  | nil => exact .refl W hP.book
  | cons h hs ih =>
    have h1 := hstep P h hP (hown h List.mem_cons_self)
    exact h1.trans (ih (fun x hx => hown x (List.mem_cons_of_mem _ hx)) (h1.inPlace hP))

/-- Steps that change nothing and reach nothing leave the records as they are. -/
theorem cutEach_of_idle (hs : List Handle) (h : ∀ x ∈ hs, step F x = (F, false)) : cutEach step c hs F = (F, []) := by
  induction hs with
  | nil => rfl
  | cons x hs ih =>
    simp only [cutEach, h x List.mem_cons_self, ih fun y hy => h y (List.mem_cons_of_mem _ hy)]
    rfl

/-! ### One carriage after the other -/

variable {turn : CarId → Fleet → Fleet × List Reached} {cs : List CarId}

/-- The demand leaves each carriage as its own turn did, which met it as the demand found it. -/
theorem cutCars_each (hturn : ∀ (c : CarId) (P : Fleet), InPlace F P → Within W c (F.Owns c) P (turn c P).1)
    (cs : List CarId) (hcs : cs.Nodup) (hP : InPlace F P) :
    (∀ d ∉ cs, SameFor F d P (cutCars turn cs P).1) ∧
      ∀ d ∈ cs, ∃ Q, InPlace F Q ∧ SameFor F d P Q ∧ SameFor F d (turn d Q).1 (cutCars turn cs P).1 := by
  induction cs generalizing P with
  | nil => exact ⟨fun d _ => .refl F d P, fun d hd => absurd hd List.not_mem_nil⟩
  | cons c cs ih =>
    obtain ⟨hnot, hcs⟩ := List.nodup_cons.mp hcs
    have h1 := hturn c P hP
    obtain ⟨hrest, heach⟩ := ih hcs (h1.inPlace hP)
    refine ⟨fun d hd => ?_, fun d hd => ?_⟩
    · obtain ⟨hdc, hd⟩ := not_or.mp (mt List.mem_cons.mpr hd)
      exact (h1.sameFor hdc).trans (hrest d hd)
    · rcases List.mem_cons.mp hd with rfl | hd
      · exact ⟨P, hP, .refl F d P, hrest d hnot⟩
      · obtain ⟨Q, hQ, hPQ, hQG⟩ := heach d hd
        have hdc : d ≠ c := fun e => hnot (e ▸ hd)
        exact ⟨Q, hQ, (h1.sameFor hdc).trans hPQ, hQG⟩

/-- When a carriage's turn reaches what the demand's start says, so does the demand. -/
theorem cutCars_reached {R : CarId → List Reached}
    (hturn : ∀ (c : CarId) (P : Fleet), InPlace F P → Within W c (F.Owns c) P (turn c P).1)
    (cs : List CarId) (hcs : cs.Nodup) (hP : InPlace F P)
    (hR : ∀ c ∈ cs, ∀ Q, InPlace F Q → SameFor F c P Q → (turn c Q).2 = R c) :
    (cutCars turn cs P).2 = cs.flatMap R := by
  induction cs generalizing P with
  | nil => rfl
  | cons c cs ih =>
    obtain ⟨hnot, hcs⟩ := List.nodup_cons.mp hcs
    have h1 := hturn c P hP
    have hrest := ih hcs (h1.inPlace hP) fun d hd Q hQ hs =>
      hR d (List.mem_cons_of_mem _ hd) Q hQ ((h1.sameFor fun e => hnot (e ▸ hd)).trans hs)
    rw [List.flatMap_cons, ← hrest, ← hR c List.mem_cons_self P hP (.refl F c P)]
    rfl

/-- When a carriage's turn changes a notice as the demand's start says, so does the demand. -/
theorem cutCars_notice {k : Fin 15} {N : CarId → Notice → Notice}
    (hturn : ∀ (c : CarId) (P : Fleet), InPlace F P → Within W c (F.Owns c) P (turn c P).1)
    (cs : List CarId) (hcs : cs.Nodup) (hP : InPlace F P)
    (hN : ∀ c ∈ cs, ∀ Q, InPlace F Q → SameFor F c P Q → ((turn c Q).1).notices[k] = N c Q.notices[k]) :
    ((cutCars turn cs P).1).notices[k] = cs.foldl (fun n c => N c n) P.notices[k] := by
  induction cs generalizing P with
  | nil => rfl
  | cons c cs ih =>
    obtain ⟨hnot, hcs⟩ := List.nodup_cons.mp hcs
    have h1 := hturn c P hP
    have hrest := ih hcs (h1.inPlace hP) fun d hd Q hQ hs =>
      hN d (List.mem_cons_of_mem _ hd) Q hQ ((h1.sameFor fun e => hnot (e ▸ hd)).trans hs)
    rw [List.foldl_cons, ← hN c List.mem_cons_self P hP (.refl F c P)]
    exact hrest

end Turns

/-! ### Cuts within one carriage -/

section Cuts

variable {W : World} {F P G : Fleet} {c : CarId} {T : SlotId → Prop} {i : SlotId} {w : Warrant}

/-- A shortened warrant stays on its carriage's book. -/
theorem Shortened.book {x : Int} {m : Option Reason} (h : Shortened W F i w x m G)
    (hw : (F.slots[i]).warrant = some w) (hF : F.Book) : G.Book := by
  refine BookAkin.book ⟨fun _ => by rw [h.cars], fun _ => by rw [h.cars], fun j => ?_, fun j => ?_⟩ hF
  · by_cases hj : j = i
    · rw [hj, h.slot]
    · rw [h.slots j hj]
  · by_cases hj : j = i
    · rw [hj, h.slot, hw]; rfl
    · rw [h.slots j hj]

theorem Within.of_shortened {x : Int} {m : Option Reason} (h : Shortened W F i w x m G) (hF : F.Book) (hi : T i)
    (hw : (F.slots[i]).warrant = some w) (hc : w.carriage = c) : Within W c T F G := by
  subst hc
  refine ⟨fun _ _ => by rw [h.cars], ?_, ?_, ?_, ?_, ?_, ?_, fun y hy => ?_, fun j hj => h.slots j ?_, h.lists,
    .inr h.zones, h.book hw hF⟩
  case refine_8 => rintro rfl; exact hj hi
  all_goals rw [h.cars]
  exact hy

theorem Within.shorten (hF : F.Book) (hi : T i) (hw : (F.slots[i]).warrant = some w) (hc : w.carriage = c) (x : Int) :
    Within W c T F (shorten W F i x) :=
  .of_shortened (shorten_shortened x hw) hF hi hw hc

theorem Within.markWarrant (hF : F.Book) (hi : T i) (hw : (F.slots[i]).warrant = some w) (hc : w.carriage = c)
    (r : Reason) : Within W c T F (markWarrant W F i r) :=
  .of_shortened (markWarrant_marked r hw) hF hi hw hc

theorem Within.cutFrontMarking (hF : F.Book) (hT : F.Covers c T) (hw : (F.slots[i]).warrant = some w)
    (hc : w.carriage = c) (r : Reason) : Within W c T F (cutFrontMarking W F i w r) := by
  unfold Machine.cutFrontMarking
  split
  · exact .retire hF hT hw hc r
  · exact .markWarrant hF (hT i w hw hc) hw hc r

theorem Within.cutFront (hF : F.Book) (hi : T i) (hw : (F.slots[i]).warrant = some w) (hc : w.carriage = c)
    (source : CutSource) : Within W c T F (cutFront W source F i w) := by
  rcases cutFront_cases W source F i w with ⟨-, e⟩ | ⟨-, e⟩
  · rw [e]
    exact .refl W hF
  · rw [e]
    have hs := Within.shorten (W := W) hF hi hw hc (cutLimit W F w)
    exact hs.trans (.raise hs.book _)

theorem Within.estopStep {h : Handle} (hP : InPlace F P) (hi : F.Owns c h.slot) :
    Within W c (F.Owns c) P (estopStep W P h).1 := by
  unfold Machine.estopStep
  split
  · rename_i w hw
    have hs := Fleet.slot_of_live hw
    exact .cutFrontMarking hP.book (hP.covers c) hs (hP.carriage_eq hi hs) _
  · exact .refl W hP.book

theorem Within.windSuspended {h : Handle} (hP : InPlace F P) (hi : F.Owns c h.slot) (hw : P.live h = some w) :
    Within W c (F.Owns c) P (windSuspended W P h w) := by
  have hs := Fleet.slot_of_live hw
  have hc := hP.carriage_eq hi hs
  unfold Machine.windSuspended
  split
  · have h1 := Within.markWarrant (W := W) hP.book hi hs hc .wind
    exact h1.trans (.raise h1.book _)
  · have h1 := Within.retire (W := W) hP.book (hP.covers c) hs hc .wind
    exact h1.trans (.raise h1.book _)

theorem Within.windStep {h : Handle} (entered : WindState) (hP : InPlace F P) (hi : F.Owns c h.slot) :
    Within W c (F.Owns c) P (windStep W entered P h).1 := by
  unfold Machine.windStep
  split
  · exact .refl W hP.book
  · rename_i w hw
    have hs := Fleet.slot_of_live hw
    simp only []
    split
    · exact .refl W hP.book
    · split
      · split
        · exact .windSuspended hP hi hw
        · exact .refl W hP.book
      · split
        · exact .cutFront hP.book hi hs (hP.carriage_eq hi hs) _
        · exact .refl W hP.book

/-- A carriage's handles stand in its own slots. -/
theorem InPlace.owns_of_stacked (hP : InPlace F P) {h : Handle} (hh : h ∈ (P.cars[c]).stack) : F.Owns c h.slot := by
  obtain ⟨w, hw, hc, -⟩ := hP.book.stacked c h hh
  exact hP.covers c _ w (Fleet.slot_of_live hw) hc

theorem InPlace.owns_of_current (hP : InPlace F P) {h : Handle} (hh : (P.cars[c]).current = some h) :
    F.Owns c h.slot := by
  obtain ⟨w, hw, hc, -⟩ := hP.book.current c h hh
  exact hP.covers c _ w (Fleet.slot_of_live hw) hc

theorem InPlace.owns_of_warrantsOf (hP : InPlace F P) {h : Handle} (hh : h ∈ warrantsOf P c) : F.Owns c h.slot := by
  rcases List.mem_append.mp hh with hh | hh
  · exact hP.owns_of_stacked hh
  · exact hP.owns_of_current (Option.mem_toList.mp hh)

/-- One carriage's turn under the ESTOP line stays within it. -/
theorem Within.estopTurn (hP : InPlace F P) : Within W c (F.Owns c) P
    (Machine.cutEach (Machine.estopStep W) c (P.cars[c]).current.toList P).1 :=
  .cutEach (fun _ _ hQ hi => .estopStep hQ hi) _ (fun _ hh => hP.owns_of_current (Option.mem_toList.mp hh)) hP

/-- One carriage's turn under a rise of the wind stays within it. -/
theorem Within.windTurn (entered : WindState) (hP : InPlace F P) : Within W c (F.Owns c) P
    (Machine.cutEach (Machine.windStep W entered) c (warrantsOf P c) P).1 :=
  .cutEach (fun _ _ hQ hi => .windStep entered hQ hi) _ (fun _ hh => hP.owns_of_warrantsOf hh) hP

end Cuts

end Sys2Proof.Machine
end

section
namespace Sys2Proof.Machine

/-! ## The ESTOP line state is read by no operation on warrants (R153) -/

section EstopLine

variable (W : World) (v : Bool) (F : Fleet)

theorem walkUnits_estopLine (p : WalkPlan) (others us : List TrackUnit) (st : WalkState) :
    walkUnits { W with estopLine := v } F p others us st = walkUnits W F p others us st := by
  induction us generalizing st with
  | nil => rfl
  | cons u us ih =>
    have hu : testUnit { W with estopLine := v } F p others u st = testUnit W F p others u st := rfl
    simp only [walkUnits, hu, ih]

theorem walk_estopLine (p : WalkPlan) : walk { W with estopLine := v } F p = walk W F p := by
  simp only [walk, walkUnits_estopLine]
  rfl

/-- A resumption reads of the world only what a quiet retirement, the walk and the warrant resumed do. -/
theorem attemptFrom_congr {W W' : World} (hquit : ∀ F i r, retireQuietly W' F i r = retireQuietly W F i r)
    (hplan : ∀ F i w, resumePlan W' F i w = resumePlan W F i w) (hwalk : ∀ F p, walk W' F p = walk W F p)
    (hres : ∀ F i w res, resumeWarrant W' F i w res = resumeWarrant W F i w res) (c : CarId) (hs : List Handle)
    (F : Fleet) : attemptFrom W' c hs F = attemptFrom W c hs F := by
  induction hs generalizing F with
  | nil => rfl
  | cons h hs ih => simp only [attemptFrom, hquit, hplan, hwalk, hres, ih]

theorem attempt_estopLine (c : CarId) : attempt { W with estopLine := v } F c = attempt W F c := by
  have hf : ∀ hs, attemptFrom { W with estopLine := v } c hs F = attemptFrom W c hs F := fun hs =>
    attemptFrom_congr (W := W) (W' := { W with estopLine := v }) (fun _ _ _ => rfl) (fun _ _ _ => rfl)
      (walk_estopLine W v) (fun _ _ _ _ => rfl) c hs F
  simp only [attempt, hf]

theorem retire_estopLine (i : SlotId) (r : Reason) : retire { W with estopLine := v } F i r = retire W F i r := by
  have hu : ∀ w, unlink { W with estopLine := v } F i w r = unlink W F i w r := fun _ => rfl
  simp only [retire, releaseHold, hu, attempt_estopLine]

theorem cutFrontMarking_estopLine (i : SlotId) (w : Warrant) (r : Reason) :
    cutFrontMarking { W with estopLine := v } F i w r = cutFrontMarking W F i w r := by
  have hm : markWarrant { W with estopLine := v } F i r = markWarrant W F i r := rfl
  simp only [cutFrontMarking, hm, retire_estopLine]

theorem cutForEstop_estopLine : cutForEstop { W with estopLine := v } F = cutForEstop W F := by
  have hs : estopStep { W with estopLine := v } = estopStep W := by
    funext F h
    simp only [estopStep, cutFrontMarking_estopLine]
  simp only [cutForEstop, hs]

end EstopLine

/-! ## A demand's notices -/

/-- CUT_BACK changes its own record alone. -/
theorem raiseCuts_fields (F : Fleet) (source : CutSource) (xs : List Reached) :
    (raiseCuts F source xs).cars = F.cars ∧ (raiseCuts F source xs).slots = F.slots ∧
      (raiseCuts F source xs).occupancy = F.occupancy ∧ (raiseCuts F source xs).holders = F.holders ∧
      (raiseCuts F source xs).notices[(1 : Fin 15)] = cutBacks source xs F.notices[(1 : Fin 15)] ∧
      ∀ n : Fin 15, n ≠ 1 → (raiseCuts F source xs).notices[n] = F.notices[n] := by
  induction xs generalizing F with
  | nil => exact ⟨rfl, rfl, rfl, rfl, rfl, fun _ _ => rfl⟩
  | cons x xs ih =>
    obtain ⟨hc, hs, ho, hh, h1, hn⟩ :=
      ih (F.raise { carriage := some x.1, handle := some x.2, value := .cutBack source })
    exact ⟨hc, hs, ho, hh, h1.trans (congrArg _ ((Fleet.raise_get _ _ _).trans (if_pos rfl))),
      fun n hne => (hn n hne).trans ((Fleet.raise_get _ _ _).trans (if_neg hne))⟩


/-- A quiet retirement raises nothing. -/
theorem retireQuietly_notices (W : World) (F : Fleet) (i : SlotId) (r : Reason) :
    (retireQuietly W F i r).notices = F.notices := by
  cases hw : (F.slots[i]).warrant with
  | none => simp only [retireQuietly, hw]
  | some w =>
    rw [retireQuietly_eq hw]
    exact unlink_notices W F i w r

/-- Notice `n` is the same in both. -/
def Hushed (n : Fin 15) (F G : Fleet) : Prop := G.notices[n] = F.notices[n]

section Hushed

variable {W : World} {F G P : Fleet} {n : Fin 15}

theorem Hushed.trans (h : Hushed n F P) (h' : Hushed n P G) : Hushed n F G := Eq.trans h' h

theorem Hushed.of_eq (h : G.notices = F.notices) : Hushed n F G := by rw [Hushed, h]

theorem Hushed.raise (F : Fleet) {d : Detail} (hd : n ≠ d.value.kind) : Hushed n F (F.raise d) :=
  (Fleet.raise_get F d n).trans (if_neg hd)

/-- A resumption attempt raises RESUMED and RESUME_FAIL and nothing else. -/
theorem Hushed.attemptFrom (W : World) (c : CarId) (h8 : n ≠ 8) (h9 : n ≠ 9) (hs : List Handle) (F : Fleet) :
    Hushed n F (attemptFrom W c hs F) := by
  have hquit : ∀ (F : Fleet) (i : SlotId) (r : Reason), Hushed n F (retireQuietly W F i r) := fun F i r =>
    .of_eq (retireQuietly_notices W F i r)
  have hfail : ∀ (F : Fleet) (h : Handle) (r : Reason) (b : Option Blocker), Hushed n F (raiseResumeFail F c h r b) :=
    fun F _ _ _ => Hushed.raise F h9
  induction hs generalizing F with
  | nil => exact .of_eq rfl
  | cons h hs ih =>
    simp only [Machine.attemptFrom]
    split
    · exact ih _
    · split
      · exact (hquit _ _ _).trans (ih _)
      · split
        · exact ((hquit _ _ _).trans (hfail _ _ _ _)).trans (ih _)
        · split
          · refine Hushed.trans (.of_eq ?_) (.raise _ h8)
            rw [refront_notices, resettle_notices, Fleet.modCar_notices, Fleet.putWarrant_notices]
          · exact ((hquit _ _ _).trans (hfail _ _ _ _)).trans (ih _)

theorem Hushed.attempt (W : World) (F : Fleet) (c : CarId) (h8 : n ≠ 8) (h9 : n ≠ 9) : Hushed n F (attempt W F c) := by
  unfold Machine.attempt
  split
  · exact .attemptFrom W c h8 h9 _ F
  · exact .of_eq rfl

theorem Hushed.releaseHold (W : World) (F : Fleet) (c : CarId) (x : Cause) (h8 : n ≠ 8) (h9 : n ≠ 9) :
    Hushed n F (releaseHold W F c x) := by
  simp only [Machine.releaseHold]
  split
  · exact Hushed.trans (.of_eq rfl) (.attempt W _ c h8 h9)
  · exact .of_eq rfl

/-- A retirement raises RESUMED and RESUME_FAIL and nothing else. -/
theorem Hushed.retire (W : World) (F : Fleet) (i : SlotId) (r : Reason) (h8 : n ≠ 8) (h9 : n ≠ 9) :
    Hushed n F (retire W F i r) := by
  cases hw : (F.slots[i]).warrant with
  | none => exact .of_eq (by simp only [Machine.retire, hw])
  | some w =>
    have hU : Hushed n F (unlink W F i w r) := .of_eq (unlink_notices W F i w r)
    have hlift : ∀ A : Fleet, Hushed n F A →
        Hushed n F (if losesKey A w then Machine.releaseHold W A w.carriage .keyLost else A) := fun A hA => by
      split
      · exact hA.trans (.releaseHold W A _ _ h8 h9)
      · exact hA
    simp only [Machine.retire, hw]
    refine hlift _ ?_
    split
    · exact hU.trans (.attempt W _ _ h8 h9)
    · exact hU

theorem Hushed.cutFrontMarking (W : World) (F : Fleet) (i : SlotId) (w : Warrant) (r : Reason) (h8 : n ≠ 8)
    (h9 : n ≠ 9) : Hushed n F (cutFrontMarking W F i w r) := by
  unfold Machine.cutFrontMarking
  split
  · exact .retire W F i r h8 h9
  · exact .of_eq (markWarrant_notices W F i r)

end Hushed

/-! ## What a carriage's own records settle -/

section SameFor

variable {F P Q : Fleet} {c : CarId} {i : SlotId} {w : Warrant}

theorem SameFor.live (hs : SameFor F c P Q) {h : Handle} (hi : F.Owns c h.slot) : Q.live h = P.live h := by
  simp only [Fleet.live, hs.slots h.slot hi]

theorem SameFor.currentOf (hs : SameFor F c P Q) (hP : InPlace F P) : Q.currentOf c = P.currentOf c := by
  unfold Fleet.currentOf
  rw [hs.car]
  cases hc : (P.cars[c]).current with
  | none => rfl
  | some h => simp only [hs.live (hP.owns_of_current hc)]

theorem SameFor.topOf (hs : SameFor F c P Q) (hP : InPlace F P) : Q.topOf c = P.topOf c := by
  unfold Fleet.topOf
  rw [hs.car]
  cases hc : (P.cars[c]).stack.getLast? with
  | none => rfl
  | some h => simp only [hs.live (hP.owns_of_stacked (List.mem_of_getLast? hc))]

theorem SameFor.frontNow (hs : SameFor F c P Q) (hP : InPlace F P) : Q.frontNow c = P.frontNow c := by
  refine frontNow_congr (by rw [hs.car]) (by rw [hs.car]) (by rw [hs.car]) ?_
  rw [Fleet.supervising, Fleet.supervising, Fleet.inRunOut, Fleet.inRunOut, hs.car, hs.topOf hP, hs.currentOf hP]

end SameFor

/-! ## A retirement that resumes nothing -/

section Quiet

variable {W : World} {F : Fleet} {c : CarId} {i : SlotId} {w : Warrant}

/-- The carriage's record after a retirement without a resumption (R88). -/
theorem retireQuietly_car (hw : (F.slots[i]).warrant = some w) (r : Reason) :
    (retireQuietly W F i r).cars[w.carriage] = { F.cars[w.carriage] with
      current := if (F.cars[w.carriage]).current = some (F.handleOf i) then none else (F.cars[w.carriage]).current
      stack := (F.cars[w.carriage]).stack.filter (fun h => h != F.handleOf i)
      lastRetire := some (r, F.handleOf i)
      holds := { (F.cars[w.carriage]).holds with
        keyLost := (F.cars[w.carriage]).holds.keyLost && !(w.cls == .maintenance) }
      front := if (F.cars[w.carriage]).current = some (F.handleOf i) ∨ (F.cars[w.carriage]).holds.reversal = true then
          (retireQuietly W F i r).frontNow w.carriage
        else (F.cars[w.carriage]).front } := by
  have hU : Retired W F i w r (unlink W F i w r) := unlink_retired r
  rw [retireQuietly_eq hw]
  have hself := Fleet.modCar_get_self (unlink W F i w r) w.carriage
    (fun k => { k with holds := { k.holds with keyLost := k.holds.keyLost && !(w.cls == .maintenance) } })
  generalize hG : (unlink W F i w r).modCar w.carriage
    (fun k => { k with holds := { k.holds with keyLost := k.holds.keyLost && !(w.cls == .maintenance) } }) = G at *
  have hfront : G.frontNow w.carriage = (unlink W F i w r).frontNow w.carriage :=
    frontNow_congr (by rw [hself]) (by rw [hself]) (by rw [hself])
      (congrArg _ (supervising_congr (by rw [hself]) (by rw [hself]) (by rw [hself]) (by rw [← hG]; rfl)))
  rw [hfront, hself, hU.car]

/-- A carriage that holds ESTOP resumes nothing (R124). -/
theorem attempt_of_estop (h : (F.cars[c]).holds.estop = true) : attempt W F c = F := by
  have hheld : (F.cars[c]).holds.isEmpty = false := by
    rw [HoldSet.isEmpty, h]
    simp
  have hno : mayAttempt F c = false := by simp only [mayAttempt, hheld, Bool.and_false]
  rw [attempt, hno]
  rfl

theorem retire_of_estop (hw : (F.slots[i]).warrant = some w) (h : (F.cars[w.carriage]).holds.estop = true)
    (r : Reason) :
    retire W F i r = retireQuietly W F i r := by
  have hU : ((unlink W F i w r).cars[w.carriage]).holds.estop = true := by
    rw [(unlink_retired r).car]; exact h
  have hlift : releaseHold W (unlink W F i w r) w.carriage .keyLost =
      (unlink W F i w r).removeHold w.carriage .keyLost := by
    have hs : (((unlink W F i w r).removeHold w.carriage .keyLost).cars[w.carriage]).holds.estop = true := by
      rw [Fleet.removeHold, Fleet.modCar_get_self]; exact hU
    simp only [releaseHold, attempt_of_estop hs, ite_self]
  simp only [retire, retireQuietly, hw, attempt_of_estop hU, ite_self, hlift]

end Quiet

end Sys2Proof.Machine
end

section
namespace Sys2Proof.Machine

/-! ## The ESTOP demand, carriage by carriage (R153) -/

section Estop

variable {W : World} {F A P Q G : Fleet} {c : CarId} {i j : SlotId} {w : Warrant}

/-- The ESTOP demand's turn of carriage `c`. -/
def estopOn (W : World) (c : CarId) (P : Fleet) : Fleet × List Reached :=
  cutEach (estopStep W) c (P.cars[c]).current.toList P

theorem cutForEstop_eq (W : World) (F : Fleet) : cutForEstop W F = cutCars (estopOn W) (List.finRange 16) F := rfl

theorem estopOn_of_none (h : P.currentOf c = none) : estopOn W c P = (P, []) := by
  unfold Fleet.currentOf at h
  cases hc : (P.cars[c]).current with
  | none => simp only [estopOn, hc, Option.toList, cutEach]
  | some x =>
    simp only [hc, Option.map_eq_none_iff] at h
    simp only [estopOn, hc, Option.toList, cutEach, estopStep, h]
    rfl

theorem estopOn_of_some (h : P.currentOf c = some (i, w)) :
    estopOn W c P = (cutFrontMarking W P i w .estop, [(c, P.handleOf i)]) := by
  unfold Fleet.currentOf at h
  cases hc : (P.cars[c]).current with
  | none => simp only [hc, reduceCtorEq] at h
  | some x =>
    simp only [hc, Option.map_eq_some_iff, Prod.mk.injEq] at h
    obtain ⟨u, hu, rfl, rfl⟩ := h
    simp only [estopOn, hc, Option.toList, cutEach, estopStep, hu, Fleet.handleOf_slot_of_live hu, if_true]

/-- One carriage's turn is what R153 says of its current warrant. -/
theorem estopOn_estopTurn (W : World) (c : CarId) (P : Fleet) : Machine.estopTurn W c P (estopOn W c P).1 := by
  unfold Machine.estopTurn
  cases hx : P.currentOf c with
  | none => simp only [estopOn_of_none hx]
  | some y =>
    obtain ⟨i, w⟩ := y
    simp only [estopOn_of_some hx]
    exact cutFrontMarking_stoppedOrMarked _ (Fleet.slot_of_currentOf hx).1

theorem Hushed.estopOn (W : World) (c : CarId) (P : Fleet) {n : Fin 15} (h8 : n ≠ 8) (h9 : n ≠ 9) :
    Hushed n P (estopOn W c P).1 := by
  cases hx : P.currentOf c with
  | none => exact .of_eq (by rw [estopOn_of_none hx])
  | some y =>
    obtain ⟨i, w⟩ := y
    rw [estopOn_of_some hx]
    exact .cutFrontMarking W P i w _ h8 h9

theorem Hushed.cutCars {turn : CarId → Fleet → Fleet × List Reached} {n : Fin 15}
    (hturn : ∀ (c : CarId) (P : Fleet), Hushed n P (turn c P).1) (cs : List CarId) (F : Fleet) :
    Hushed n F (cutCars turn cs F).1 := by
  induction cs generalizing F with
  | nil => exact .of_eq rfl
  | cons c cs ih => exact (hturn c F).trans (ih _)

/-- Each carriage meets its turn as the demand found it. -/
theorem cutForEstop_each (W : World) (hA : A.Book) (c : CarId) : ∃ Q, InPlace A Q ∧ SameFor A c A Q ∧
    Within W c (A.Owns c) Q (estopOn W c Q).1 ∧ SameFor A c (estopOn W c Q).1 (cutForEstop W A).1 := by
  obtain ⟨-, heach⟩ := cutCars_each (turn := estopOn W) (fun _ _ hP => .estopTurn hP) (List.finRange 16)
    (List.nodup_finRange 16) (InPlace.refl hA)
  obtain ⟨Q, hQ, hAQ, hQG⟩ := heach c (List.mem_finRange c)
  exact ⟨Q, hQ, hAQ, .estopTurn hQ, hQG⟩

/-- A carriage without a current warrant is kept. -/
theorem cutForEstop_idle (hA : A.Book) (hx : A.currentOf c = none) : SameFor A c A (cutForEstop W A).1 := by
  obtain ⟨Q, -, hAQ, -, hQG⟩ := cutForEstop_each W hA c
  rw [estopOn_of_none ((hAQ.currentOf (.refl hA)).trans hx)] at hQG
  exact hAQ.trans hQG

/-- The current warrant of a standing carriage that holds ESTOP retires, and nothing is resumed. -/
theorem cutForEstop_stops (hA : A.Book) (he : (A.cars[c]).holds.estop = true) (hx : A.currentOf c = some (i, w))
    (hv : (A.cars[c]).lastV ≤ 5) :
    (cutForEstop W A).1.cars[c] = { A.cars[c] with
        current := none
        lastRetire := some (.estop, A.handleOf i)
        holds := { (A.cars[c]).holds with keyLost := (A.cars[c]).holds.keyLost && !(w.cls == .maintenance) }
        front := (cutForEstop W A).1.frontNow c } ∧
      (cutForEstop W A).1.slots[i] = { A.slots[i] with warrant := none } ∧
      ∀ j : SlotId, A.Owns c j → j ≠ i → (cutForEstop W A).1.slots[j] = A.slots[j] := by
  obtain ⟨Q, hQ, hAQ, hin, hQG⟩ := cutForEstop_each W hA c
  have hxQ : Q.currentOf c = some (i, w) := (hAQ.currentOf (.refl hA)).trans hx
  obtain ⟨hcur, hw, hwc, -⟩ := hQ.book.currentOf_some hxQ
  have hi : A.Owns c i := hQ.covers c i w hw hwc
  have hst : (Q.cars[c]).stack.filter (fun h => h != Q.handleOf i) = (Q.cars[c]).stack :=
    List.filter_eq_self.mpr fun x hm => bne_iff_ne.mpr fun e => hQ.book.current_not_stacked hxQ (e ▸ hm)
  subst hwc
  have hturn : (estopOn W w.carriage Q).1 = retireQuietly W Q i .estop := by
    have hstand : standstill (Q.cars[w.carriage]).lastV = true := decide_eq_true (by rw [hAQ.car]; exact hv)
    rw [estopOn_of_some hxQ]
    simp only [cutFrontMarking, hstand, if_true]
    exact retire_of_estop hw (by rw [hAQ.car]; exact he) _
  rw [hturn] at hQG hin
  have hh : Q.handleOf i = A.handleOf i := by rw [Fleet.handleOf, Fleet.handleOf, hAQ.slots i hi]
  obtain ⟨hslot, hslots, -⟩ := retireQuietly_spec W hw .estop
  refine ⟨?_, (hQG.slots i hi).trans (hslot.trans (by rw [hAQ.slots i hi])), fun j hj hji =>
    (hQG.slots j hj).trans ((hslots j hji).trans (hAQ.slots j hj))⟩
  rw [hQG.frontNow (hin.inPlace hQ), hQG.car, retireQuietly_car hw]
  rw [if_pos hcur, if_pos (.inl hcur), hst, hh, hAQ.car]

/-- The current warrant of a moving carriage is cut and marked. -/
theorem cutForEstop_marks (hA : A.Book) (hx : A.currentOf c = some (i, w)) (hv : 5 < (A.cars[c]).lastV) :
    (cutForEstop W A).1.cars[c] = A.cars[c] ∧ (cutForEstop W A).1.slots[i] = markedSlot W A i w .estop ∧
      ∀ j : SlotId, A.Owns c j → j ≠ i → (cutForEstop W A).1.slots[j] = A.slots[j] := by
  obtain ⟨Q, hQ, hAQ, hin, hQG⟩ := cutForEstop_each W hA c
  have hxQ : Q.currentOf c = some (i, w) := (hAQ.currentOf (.refl hA)).trans hx
  obtain ⟨-, hw, hwc, -⟩ := hQ.book.currentOf_some hxQ
  have hi : A.Owns c i := hQ.covers c i w hw hwc
  subst hwc
  have hturn : (estopOn W w.carriage Q).1 = markWarrant W Q i .estop := by
    have hmoves : standstill (Q.cars[w.carriage]).lastV = false :=
      decide_eq_false (by rw [hAQ.car]; exact Nat.not_le.mpr hv)
    rw [estopOn_of_some hxQ]
    simp only [cutFrontMarking, hmoves, Bool.false_eq_true, if_false]
  rw [hturn] at hQG
  have hm := markWarrant_marked (W := W) .estop hw
  refine ⟨?_, ?_, fun j hj hji => (hQG.slots j hj).trans ((hm.slots j hji).trans (hAQ.slots j hj))⟩
  · rw [hQG.car, hm.cars, hAQ.car]
  · rw [hQG.slots i hi, hm.slot]
    exact markedSlot_of_car (by rw [hAQ.slots i hi]) (by rw [hAQ.car]) (by rw [hAQ.car]) (by rw [hAQ.car])
      (by rw [hAQ.car])

/-- What the demand reaches of carriage `c`: its current warrant. -/
def currentReached (F : Fleet) (c : CarId) : Option Reached := (F.cars[c]).current.map (fun h => (c, h))

theorem estopOn_reached (hP : P.Book) : (estopOn W c P).2 = (currentReached P c).toList := by
  cases hx : P.currentOf c with
  | none => rw [estopOn_of_none hx, currentReached, hP.current_none hx]; rfl
  | some y =>
    obtain ⟨i, w⟩ := y
    rw [estopOn_of_some hx, currentReached, (hP.currentOf_some hx).1]
    rfl

theorem cutForEstop_reached (W : World) (hA : A.Book) :
    (cutForEstop W A).2 = (List.finRange 16).flatMap (fun c => (currentReached A c).toList) :=
  cutCars_reached (turn := estopOn W) (fun _ _ hP => .estopTurn hP) (List.finRange 16) (List.nodup_finRange 16)
    (InPlace.refl hA) fun c _ Q hQ hAQ => by
      rw [estopOn_reached hQ.book, currentReached, currentReached, hAQ.car]

/-- The current warrants are those that are not suspended (R66). -/
theorem reachedBy_unsuspended (hF : F.Book) : reachedBy F (fun _ w => w.state != .suspended) =
    (List.finRange 16).flatMap (fun c => (currentReached F c).toList) := by
  unfold reachedBy
  refine List.flatMap_congr fun c _ => ?_
  have hst : (F.cars[c]).stack.filter (fun h => (F.live h).any (fun w => w.state != .suspended)) = [] := by
    refine List.filter_eq_nil_iff.mpr fun h hh => ?_
    obtain ⟨w, hw, -, hs⟩ := hF.stacked c h hh
    simp [hw, hs]
  rw [warrantsOf, List.filter_append, hst, List.nil_append, currentReached]
  cases hc : (F.cars[c]).current with
  | none => rfl
  | some h =>
    obtain ⟨w, hw, -, hs⟩ := hF.current c h hc
    simp [hw, hs]

/-- One warrant is reached for each carriage with a current one. -/
theorem reached_length (F : Fleet) (cs : List CarId) : (cs.flatMap (fun c => (currentReached F c).toList)).length =
    (cs.filter (fun c => (F.cars[c]).current.isSome)).length := by
  induction cs with
  | nil => rfl
  | cons c cs ih =>
    rw [List.flatMap_cons, List.length_append, ih, List.filter_cons, currentReached]
    cases (F.cars[c]).current with
    | none => simp
    | some h => simp [Nat.add_comm]

theorem Fleet.addHoldAll_eq_map (F : Fleet) (x : Cause) : F.addHoldAll x =
    { F with cars := F.cars.map (fun k => if k.configured then { k with holds := k.holds.add x } else k) } := by
  unfold Fleet.addHoldAll
  congr 1
  ext n hn
  simp

end Estop

end Sys2Proof.Machine
end

section
namespace Sys2Proof.Machine

section EstopLaw

variable {W : World} {F G : Fleet} {c : CarId} {i : SlotId} {w : Warrant}

theorem Carriage.lastV_eq (k : Carriage) : k.lastV = (k.last.map (fun l => l.speed.natAbs)).getD 0 := by
  unfold Carriage.lastV Carriage.lastSpeed
  cases k.last <;> rfl

/-- The records of the carriages and the slots settle the front. -/
theorem frontNow_of_eq (hc : G.cars = F.cars) (hs : G.slots = F.slots) : G.frontNow c = F.frontNow c :=
  frontNow_congr (by rw [hc]) (by rw [hc]) (by rw [hc])
    (congrArg _ (supervising_congr (by rw [hc]) (by rw [hc]) (by rw [hc]) hs))

/-- The fleet after a demand's turns, with CUT_BACK raised for each warrant reached and one notice of the whole. -/
def Fleet.noticed (P : Fleet) (source : CutSource) (reached : List Reached) (d : Detail) : Fleet :=
  (raiseCuts P source reached).raise d

theorem noticed_cars (P : Fleet) (source : CutSource) (reached : List Reached) (d : Detail) :
    (P.noticed source reached d).cars = P.cars ∧ (P.noticed source reached d).slots = P.slots ∧
      (P.noticed source reached d).occupancy = P.occupancy ∧ (P.noticed source reached d).holders = P.holders := by
  obtain ⟨hc, hs, ho, hh, -⟩ := raiseCuts_fields P source reached
  exact ⟨hc, hs, ho, hh⟩

theorem noticed_other (P : Fleet) (source : CutSource) (reached : List Reached) {d : Detail} {n : Fin 15} (h1 : n ≠ 1)
    (hd : n ≠ d.value.kind) : Hushed n P (P.noticed source reached d) := by
  obtain ⟨-, -, -, -, -, hn⟩ := raiseCuts_fields P source reached
  exact Hushed.trans (hn n h1) (.raise _ hd)

theorem noticed_cutBack (P : Fleet) (source : CutSource) (reached : List Reached) {d : Detail}
    (hd : (1 : Fin 15) ≠ d.value.kind) :
    (P.noticed source reached d).notices[(1 : Fin 15)] = cutBacks source reached P.notices[(1 : Fin 15)] := by
  obtain ⟨-, -, -, -, h1, -⟩ := raiseCuts_fields P source reached
  exact ((Fleet.raise_get _ _ _).trans (if_neg hd)).trans h1

theorem noticed_self (P : Fleet) (source : CutSource) (reached : List Reached) {d : Detail} {n : Fin 15} (h1 : n ≠ 1)
    (hd : n = d.value.kind) : (P.noticed source reached d).notices[n] = (P.notices[n]).occur d := by
  obtain ⟨-, -, -, -, -, hn⟩ := raiseCuts_fields P source reached
  exact ((Fleet.raise_get _ _ _).trans (if_pos hd)).trans (congrArg (fun m : Notice => m.occur d) (hn n h1))

/-- The fleet after the ESTOP line's assertion (R153). -/
def Fleet.afterEstop (W : World) (F : Fleet) : Fleet :=
  let out := cutForEstop W (F.addHoldAll .estop)
  out.1.noticed .estop out.2 { carriage := none, handle := none, value := .estop out.2.length }

theorem estopRecords_eq (r : Records) : estopRecords r =
    (r.withWorld { r.world with estopLine := true }).withFleet (r.fleet.afterEstop r.world) := by
  unfold estopRecords Fleet.afterEstop
  simp only [cutForEstop_estopLine]
  rfl

theorem afterEstop_cars (W : World) (F : Fleet) :
    (F.afterEstop W).cars = (cutForEstop W (F.addHoldAll .estop)).1.cars ∧
      (F.afterEstop W).slots = (cutForEstop W (F.addHoldAll .estop)).1.slots ∧
      (F.afterEstop W).occupancy = (cutForEstop W (F.addHoldAll .estop)).1.occupancy ∧
      (F.afterEstop W).holders = (cutForEstop W (F.addHoldAll .estop)).1.holders :=
  noticed_cars _ _ _ _

/-- Holding ESTOP everywhere keeps the book, and what stands on it. -/
theorem addHoldAll_book (hF : F.Book) (x : Cause) : (F.addHoldAll x).Book := (Akin.addHoldAll F x).book.book hF

theorem addHoldAll_current (F : Fleet) (x : Cause) (c : CarId) :
    ((F.addHoldAll x).cars[c]).current = (F.cars[c]).current := by
  rw [Fleet.addHoldAll_get]
  split <;> rfl

theorem addHoldAll_currentOf (F : Fleet) (x : Cause) (c : CarId) : (F.addHoldAll x).currentOf c = F.currentOf c :=
  currentOf_congr (addHoldAll_current F x c) rfl

theorem addHoldAll_configured (hc : (F.cars[c]).configured = true) :
    (F.addHoldAll .estop).cars[c] = { F.cars[c] with holds := { (F.cars[c]).holds with estop := true } } := by
  rw [Fleet.addHoldAll_get, if_pos hc]
  rfl

theorem afterEstop_reached (W : World) (hF : F.Book) : (cutForEstop W (F.addHoldAll .estop)).2 =
    (List.finRange 16).flatMap (fun c => (currentReached F c).toList) := by
  rw [cutForEstop_reached W (addHoldAll_book hF _)]
  simp only [currentReached, addHoldAll_current]

/-- The turns raise neither CUT_BACK nor ESTOP. -/
theorem cutForEstop_hushed (W : World) (F : Fleet) {n : Fin 15} (h8 : n ≠ 8) (h9 : n ≠ 9) :
    Hushed n F (cutForEstop W (F.addHoldAll .estop)).1 := by
  have hA : Hushed n F (F.addHoldAll .estop) := .of_eq (F.addHoldAll_notices .estop)
  refine hA.trans ?_
  rw [cutForEstop_eq]
  exact .cutCars (fun c P => .estopOn W c P h8 h9) _ _

theorem afterEstop_cutBack (W : World) (hF : F.Book) : (F.afterEstop W).notices[(1 : Fin 15)] =
    cutBacks .estop (reachedBy F (fun _ w => w.state != .suspended)) F.notices[(1 : Fin 15)] := by
  rw [reachedBy_unsuspended hF, ← afterEstop_reached W hF]
  have hkept : Hushed 1 F (cutForEstop W (F.addHoldAll .estop)).1 := cutForEstop_hushed W F (by decide) (by decide)
  unfold Fleet.afterEstop
  generalize cutForEstop W (F.addHoldAll .estop) = out at hkept
  refine (noticed_cutBack out.1 .estop out.2 ?_).trans (congrArg _ hkept)
  exact show (1 : Fin 15) ≠ 12 by decide

theorem afterEstop_estop (W : World) (hF : F.Book) : (F.afterEstop W).notices[(12 : Fin 15)] =
    (F.notices[(12 : Fin 15)]).occur
      { carriage := none, handle := none
        value := .estop ((List.finRange 16).filter (fun c => (F.cars[c]).current.isSome)).length } := by
  rw [← reached_length F, ← afterEstop_reached W hF]
  have hkept : Hushed 12 F (cutForEstop W (F.addHoldAll .estop)).1 := cutForEstop_hushed W F (by decide) (by decide)
  unfold Fleet.afterEstop
  generalize cutForEstop W (F.addHoldAll .estop) = out at hkept
  exact (noticed_self out.1 .estop out.2 (show (12 : Fin 15) ≠ 1 by decide) rfl).trans
    (congrArg (fun m : Notice => m.occur _) hkept)

/-- A configured carriage under the ESTOP line (R112, R153). -/
theorem afterEstop_car (W : World) (hF : F.Book) (hc : (F.cars[c]).configured = true) :
    (F.afterEstop W).cars[c] =
      (let k := F.cars[c]
       let stopped := if k.lastV ≤ 5 then F.currentOf c else none
       { k with
          holds := { k.holds with
            estop := true
            keyLost := k.holds.keyLost && !stopped.any (fun x => x.2.cls == .maintenance) }
          current := if k.lastV ≤ 5 then none else k.current
          lastRetire := (stopped.map (fun x => (.estop, F.handleOf x.1))).or k.lastRetire
          front := if stopped.isSome = true then (F.afterEstop W).frontNow c else k.front }) := by
  obtain ⟨hcars, hslots, -⟩ := afterEstop_cars W F
  have hA := addHoldAll_book hF .estop
  have hk := addHoldAll_configured hc
  rw [frontNow_of_eq hcars hslots, hcars]
  cases hx : F.currentOf c with
  | none =>
    rw [(cutForEstop_idle (W := W) hA ((addHoldAll_currentOf F .estop c).trans hx)).car, hk]
    simp only [ite_self, hF.current_none hx, Option.any_none, Bool.not_false, Bool.and_true, Option.map_none,
      Option.none_or, Option.isSome_none, Bool.false_eq_true, if_false]
  | some y =>
    obtain ⟨i, w⟩ := y
    have hxA := (addHoldAll_currentOf F .estop c).trans hx
    by_cases hv : (F.cars[c]).lastV ≤ 5
    · obtain ⟨hcar, -⟩ := cutForEstop_stops (W := W) hA (by rw [hk]) hxA (by rw [hk]; exact hv)
      rw [hcar, hk]
      simp only [if_pos hv, Option.any_some, Option.map_some, Option.some_or, Option.isSome_some, if_true]
      rfl
    · obtain ⟨hcar, -⟩ := cutForEstop_marks (W := W) hA hxA (by rw [hk]; exact Nat.not_le.mp hv)
      rw [hcar, hk]
      simp only [if_neg hv, Option.any_none, Bool.not_false, Bool.and_true, Option.map_none, Option.none_or,
        Option.isSome_none, Bool.false_eq_true, if_false]

/-- A standing carriage's current warrant is gone, with reason ESTOP; a moving one's stands. -/
theorem afterEstop_standing (W : World) (hF : F.Book) (hc : (F.cars[c]).configured = true)
    (hx : F.currentOf c = some (i, w)) (hv : (F.cars[c]).lastV ≤ 5) : ((F.afterEstop W).cars[c]).current = none ∧
      ((F.afterEstop W).cars[c]).lastRetire = some (.estop, F.handleOf i) := by
  rw [afterEstop_car W hF hc]
  simp only [if_pos hv, hx, Option.map_some, Option.some_or, and_self]

theorem afterEstop_moving (W : World) (hF : F.Book) (hc : (F.cars[c]).configured = true) (hv : 5 < (F.cars[c]).lastV) :
    ((F.afterEstop W).cars[c]).current = (F.cars[c]).current := by
  rw [afterEstop_car W hF hc]
  simp only [if_neg (Nat.not_le.mpr hv)]

/-- The current warrant of a configured carriage under the ESTOP line (R112). -/
theorem afterEstop_slot (W : World) (hF : F.Book) (hc : (F.cars[c]).configured = true)
    (hx : F.currentOf c = some (i, w)) :
    (F.afterEstop W).slots[i] =
      if (F.cars[c]).lastV ≤ 5 then { F.slots[i] with warrant := none } else markedSlot W F i w .estop := by
  obtain ⟨-, hslots, -⟩ := afterEstop_cars W F
  have hA := addHoldAll_book hF .estop
  have hk := addHoldAll_configured hc
  have hxA := (addHoldAll_currentOf F .estop c).trans hx
  obtain ⟨-, -, hwc, -⟩ := hF.currentOf_some hx
  rw [hslots]
  split
  · rename_i hv
    obtain ⟨-, hslot, -⟩ := cutForEstop_stops (W := W) hA (by rw [hk]) hxA (by rw [hk]; exact hv)
    exact hslot
  · rename_i hv
    obtain ⟨-, hslot, -⟩ := cutForEstop_marks (W := W) hA hxA (by rw [hk]; exact Nat.not_le.mp hv)
    subst hwc
    exact hslot.trans (markedSlot_of_car rfl (by rw [hk]) (by rw [hk]) (by rw [hk]) (by rw [hk]))

/-- A suspended warrant of a configured carriage is left (R153). -/
theorem afterEstop_suspended (W : World) (hF : F.Book) (hw : (F.slots[i]).warrant = some w) (hs : w.state = .suspended)
    (hc : (F.cars[w.carriage]).configured = true) : (F.afterEstop W).slots[i] = F.slots[i] := by
  obtain ⟨-, hslots, -⟩ := afterEstop_cars W F
  have hA := addHoldAll_book hF .estop
  have hk := addHoldAll_configured hc
  have hown : (F.addHoldAll .estop).Owns w.carriage i := ⟨w, hw, rfl⟩
  rw [hslots, ← Fleet.addHoldAll_slots F .estop]
  cases hx : F.currentOf w.carriage with
  | none => exact (cutForEstop_idle (W := W) hA ((addHoldAll_currentOf F .estop _).trans hx)).slots i hown
  | some y =>
    obtain ⟨j, u⟩ := y
    have hxA := (addHoldAll_currentOf F .estop w.carriage).trans hx
    obtain ⟨-, hu, -, hus⟩ := hF.currentOf_some hx
    have hij : i ≠ j := by
      rintro rfl
      rw [hw, Option.some.injEq] at hu
      exact hus (hu ▸ hs)
    by_cases hv : (F.cars[w.carriage]).lastV ≤ 5
    · obtain ⟨-, -, hrest⟩ := cutForEstop_stops (W := W) hA (by rw [hk]) hxA (by rw [hk]; exact hv)
      exact hrest i hown hij
    · obtain ⟨-, -, hrest⟩ := cutForEstop_marks (W := W) hA hxA (by rw [hk]; exact Nat.not_le.mp hv)
      exact hrest i hown hij

/-- A carriage that is not configured and has no current warrant is left. -/
theorem afterEstop_unconfigured (W : World) (hF : F.Book) (hc : (F.cars[c]).configured = false)
    (hcur : (F.cars[c]).current = none) : (F.afterEstop W).cars[c] = F.cars[c] := by
  obtain ⟨hcars, -⟩ := afterEstop_cars W F
  have hx := (addHoldAll_currentOf F .estop c).trans (currentOf_none hcur)
  rw [hcars, (cutForEstop_idle (W := W) (addHoldAll_book hF .estop) hx).car, Fleet.addHoldAll_get, hc]
  rfl

end EstopLaw

end Sys2Proof.Machine

open Sys2Proof.Machine in
/-- Settles O58: each carriage meets its turn of the demand as the line's assertion found it, and one that holds ESTOP
resumes nothing. -/
theorem estopHoldsEveryCarriage : Obligations.EstopHoldsEveryCarriage := by
  intro s hr he hF W F reached
  obtain ⟨hcars, hslots, hocc, hholders⟩ := afterEstop_cars W F
  refine ⟨F.afterEstop W, ?_, ⟨(cutForEstop W (F.addHoldAll .estop)).1, ?_, hcars, hslots, hocc, hholders,
      fun n h1 h12 => noticed_other _ _ _ h1 h12⟩,
    fun c hc => afterEstop_car W hF hc, fun c hc hcur => afterEstop_unconfigured W hF hc hcur, ?_,
    fun i w hw hs hc => afterEstop_suspended W hF hw hs hc, afterEstop_cutBack W hF, afterEstop_estop W hF⟩
  · show execEstopAsserted s = _
    simp only [execEstopAsserted, he, hr, Bool.false_eq_true, if_false, State.onRecords, estopRecords_eq]
    rfl
  · rw [← Fleet.addHoldAll_eq_map]
    exact cutCars_inTurn (fun c P => estopOn_estopTurn W c P) _ _
  · intro c i w hc hx
    have hslot := afterEstop_slot W hF hc hx
    have hv := Carriage.lastV_eq (s.records.fleet.cars[c])
    refine ⟨fun hstand => ?_, fun hmoves => ?_⟩
    · have hle := hv.trans_le hstand
      rw [if_pos hle] at hslot
      exact ⟨hslot, afterEstop_standing W hF hc hx hle⟩
    · have hlt := hmoves.trans_eq hv.symm
      rw [if_neg (Nat.not_le.mpr hlt)] at hslot
      exact ⟨afterEstop_moving W hF hc hlt, hslot⟩
end

section
namespace Sys2Proof.Machine

/-! ## One warrant under a rise of the wind (R140 to R143) -/

section WindStep

variable {W : World} {F G P : Fleet} {c : CarId} {h : Handle} {w : Warrant}

/-- What a rise reaches, by the two tables of R141 to R143. -/
theorem windMeets_eq (W : World) (F : Fleet) (w : Warrant) : windMeets W F w =
    ((runOf W F w.carriage).exposed &&
      if w.state = .suspended then windReachesSuspended W.wind.state (opening (runOf W F w.carriage) w.dir)
      else windReachesCurrent W.wind.state (opening (runOf W F w.carriage) w.dir) w.cls) := by
  have ho : decide ((runOf W F w.carriage).closeDir ≠ w.dir) = opening (runOf W F w.carriage) w.dir :=
    Bool.eq_iff_iff.mpr (by simp [opening])
  have hc : decide (w.cls ≠ .emergency) = (w.cls != .emergency) :=
    Bool.eq_iff_iff.mpr (by simp)
  simp only [windMeets, ho, hc]
  congr 1
  by_cases hs : w.state = .suspended
  · rw [if_pos hs, decide_eq_true hs]
    cases W.wind.state <;> rfl
  · rw [if_neg hs, decide_eq_false hs]
    cases W.wind.state <;> rfl

theorem windStep_dead (e : WindState) (hw : F.live h = none) : windStep W e F h = (F, false) := by
  simp only [windStep, hw]

theorem windStep_unmet (hw : F.live h = some w) (hm : windMeets W F w = false) :
    windStep W W.wind.state F h = (F, false) := by
  rw [windMeets_eq, Bool.and_eq_false_iff] at hm
  simp only [windStep, hw]
  rcases hm with hx | hm
  · rw [hx]
    rfl
  · split
    · rfl
    · split at hm
      · rename_i hs
        rw [if_pos hs, hm]
        rfl
      · rename_i hs
        rw [if_neg hs, hm]
        rfl

theorem windStep_suspended (hw : F.live h = some w) (hm : windMeets W F w = true) (hs : w.state = .suspended) :
    windStep W W.wind.state F h = (windSuspended W F h w, true) := by
  rw [windMeets_eq, Bool.and_eq_true, if_pos hs] at hm
  simp only [windStep, hw, hm.1, hm.2, hs, Bool.not_true, Bool.false_eq_true, if_false, if_true]

theorem windStep_current (hw : F.live h = some w) (hm : windMeets W F w = true) (hs : w.state ≠ .suspended) :
    windStep W W.wind.state F h = (cutFront W .wind F h.slot w, true) := by
  rw [windMeets_eq, Bool.and_eq_true, if_neg hs] at hm
  simp only [windStep, hw, hm.1, hm.2, hs, Bool.not_true, Bool.false_eq_true, if_false, if_true]

theorem supervisesRunOut_iff (F : Fleet) (c : CarId) (h : Handle) : supervisesRunOut F c h = true ↔
    (F.cars[c]).holds.reversal = true ∧ (F.cars[c]).stack.getLast? = some h := by
  rw [supervisesRunOut, Fleet.inRunOut, Bool.and_eq_true, beq_iff_eq]

/-- A suspended warrant that a rise reaches is marked or retires, with its CUT_BACK. -/
theorem windSuspended_eq (W : World) (F : Fleet) (h : Handle) (w : Warrant) : windSuspended W F h w =
    (if (F.cars[w.carriage]).holds.reversal = true ∧ (F.cars[w.carriage]).stack.getLast? = some h then
      markWarrant W F h.slot .wind else retire W F h.slot .wind).raise
        { carriage := some w.carriage, handle := some h, value := .cutBack .wind } := by
  simp only [windSuspended, supervisesRunOut_iff]
  rfl

/-- A rise does to a warrant what R140 to R143 say. -/
theorem windStep_windTurn (W : World) (h : Handle) (F : Fleet) :
    Machine.windTurn W h F (windStep W W.wind.state F h).1 := by
  unfold Machine.windTurn
  cases hl : F.live h with
  | none => simp only [windStep_dead _ hl]
  | some w =>
    have hw := Fleet.slot_of_live hl
    simp only []
    by_cases hm : windMeets W F w = true
    · rw [if_neg (by rw [hm]; decide)]
      by_cases hs : w.state = .suspended
      · rw [if_pos hs, windStep_suspended hl hm hs, windSuspended_eq]
        refine ⟨_, rfl, ?_⟩
        split
        · exact markWarrant_marked .wind hw
        · exact retire_retiredWhole .wind hw
      · rw [if_neg hs, windStep_current hl hm hs]
        rcases cutFront_cases W .wind F h.slot w with ⟨hx, e⟩ | ⟨hx, e⟩
        · rw [if_pos hx, e]
        · rw [if_neg hx, e, Fleet.handleOf_slot_of_live hl]
          exact ⟨_, rfl, shorten_shortened _ hw⟩
    · rw [if_pos (eq_false_of_ne_true hm), windStep_unmet hl (eq_false_of_ne_true hm)]

theorem Hushed.windStep (W : World) (F : Fleet) (h : Handle) {n : Fin 15} (h1 : n ≠ 1) (h8 : n ≠ 8) (h9 : n ≠ 9) :
    Hushed n F (windStep W W.wind.state F h).1 := by
  cases hl : F.live h with
  | none => exact .of_eq (by rw [windStep_dead _ hl])
  | some w =>
    by_cases hm : windMeets W F w = true
    · by_cases hs : w.state = .suspended
      · rw [windStep_suspended hl hm hs, windSuspended_eq]
        refine Hushed.trans ?_ (.raise _ h1)
        split
        · exact .of_eq (markWarrant_notices _ _ _ _)
        · exact .retire _ _ _ _ h8 h9
      · rw [windStep_current hl hm hs]
        rcases cutFront_cases W .wind F h.slot w with ⟨-, e⟩ | ⟨-, e⟩
        · exact .of_eq (by rw [e])
        · rw [e]
          exact Hushed.trans (.of_eq (shorten_notices _ _ _ _)) (.raise _ h1)
    · exact .of_eq (by rw [windStep_unmet hl (eq_false_of_ne_true hm)])

theorem Hushed.cutEach {step : Fleet → Handle → Fleet × Bool} {n : Fin 15} (hstep : ∀ F h, Hushed n F (step F h).1)
    (c : CarId) (hs : List Handle) (F : Fleet) : Hushed n F (cutEach step c hs F).1 := by
  induction hs generalizing F with
  | nil => exact .of_eq rfl
  | cons h hs ih => exact (hstep F h).trans (ih _)

/-! ## One carriage under a rise of the wind -/

/-- The turn of carriage `c` under a rise of the wind. -/
def windOn (W : World) (c : CarId) (P : Fleet) : Fleet × List Reached :=
  cutEach (windStep W W.wind.state) c (warrantsOf P c) P

theorem cutForWind_eq (W : World) (F : Fleet) :
    cutForWind W W.wind.state F = cutCars (windOn W) (List.finRange 16) F := rfl

theorem windOn_windTurn (W : World) (c : CarId) (P : Fleet) :
    inTurn (Machine.windTurn W) (warrantsOf P c) P (windOn W c P).1 :=
  cutEach_inTurn (fun h F => windStep_windTurn W h F) c _ P

theorem Hushed.cutForWind (W : World) (F : Fleet) {n : Fin 15} (h1 : n ≠ 1) (h8 : n ≠ 8) (h9 : n ≠ 9) :
    Hushed n F (cutForWind W W.wind.state F).1 := by
  rw [cutForWind_eq]
  exact .cutCars (fun c P => .cutEach (fun F h => .windStep W F h h1 h8 h9) c _ P) _ F

theorem Within.windOn (hP : InPlace F P) : Within W c (F.Owns c) P (windOn W c P).1 := .windTurn _ hP

/-- Each carriage meets its turn as the rise found it. -/
theorem cutForWind_each (W : World) (hF : F.Book) (c : CarId) : ∃ Q, InPlace F Q ∧ SameFor F c F Q ∧
    Within W c (F.Owns c) Q (windOn W c Q).1 ∧
      SameFor F c (windOn W c Q).1 (cutForWind W W.wind.state F).1 := by
  obtain ⟨-, heach⟩ := cutCars_each (turn := Machine.windOn W) (fun _ _ hP => .windOn hP) (List.finRange 16)
    (List.nodup_finRange 16) (InPlace.refl hF)
  obtain ⟨Q, hQ, hFQ, hQG⟩ := heach c (List.mem_finRange c)
  exact ⟨Q, hQ, hFQ, .windOn hQ, hQG⟩

/-- A warrant of a carriage's list is live and the carriage's (R66). -/
theorem Fleet.Book.live_of_warrantsOf (hF : F.Book) (hh : h ∈ warrantsOf F c) :
    ∃ w, F.live h = some w ∧ w.carriage = c := by
  rcases List.mem_append.mp hh with hh | hh
  · obtain ⟨w, hw, hc, -⟩ := hF.stacked c h hh
    exact ⟨w, hw, hc⟩
  · obtain ⟨w, hw, hc, -⟩ := hF.current c h (Option.mem_toList.mp hh)
    exact ⟨w, hw, hc⟩

/-- A carriage of a run that is not EXPOSED takes no part in the rise. -/
theorem windOn_sheltered (hP : P.Book) (hx : (runOf W P c).exposed = false) : windOn W c P = (P, []) := by
  refine cutEach_of_idle _ fun h hh => ?_
  obtain ⟨w, hw, rfl⟩ := hP.live_of_warrantsOf hh
  exact windStep_unmet hw (by rw [windMeets_eq, hx]; rfl)

end WindStep

end Sys2Proof.Machine
end

section
namespace Sys2Proof.Machine

/-! ## A carriage in the course of its turn (R140, R143)

No resumption is made in a turn under which no KEY_LOST is held, so a warrant that has not had its step stands as the
turn found it, and so does what supervises the carriage. -/

/-- The handle is one whose warrant can supervise carriage `c` (R44). -/
def Fleet.MaySupervise (F : Fleet) (c : CarId) (x : Handle) : Prop :=
  (F.cars[c]).current = some x ∨ ((F.cars[c]).holds.reversal = true ∧ (F.cars[c]).stack.getLast? = some x)

/-- Carriage `c` is supervised in `F` as in `P`. -/
structure SupervisedAs (P F : Fleet) (c : CarId) : Prop where
  cfg : (F.cars[c]).cfg = (P.cars[c]).cfg
  pose : (F.cars[c]).pose = (P.cars[c]).pose
  last : (F.cars[c]).last = (P.cars[c]).last
  holds : (F.cars[c]).holds = (P.cars[c]).holds
  current : (F.cars[c]).current = (P.cars[c]).current
  top : (P.cars[c]).holds.reversal = true → (F.cars[c]).stack.getLast? = (P.cars[c]).stack.getLast?
  dirs : ∀ x : Handle, P.MaySupervise c x → (F.live x).map Warrant.dir = (P.live x).map Warrant.dir

/-- `F` stands in carriage `c`'s turn, which began at `P`, before the steps of `todo`. -/
structure WindMid (c : CarId) (P F : Fleet) (todo : List Handle) : Prop extends SupervisedAs P F c where
  book : F.Book
  front : (F.cars[c]).front = (P.cars[c]).front ∨
    ((P.cars[c]).holds.reversal = true ∧ (F.cars[c]).front = P.frontNow c)
  slots : ∀ x ∈ todo, F.slots[x.slot] = P.slots[x.slot]

section WindMid

variable {W : World} {F G P : Fleet} {c : CarId} {x : Handle} {hs : List Handle} {w : Warrant}

theorem SupervisedAs.refl (P : Fleet) (c : CarId) : SupervisedAs P P c :=
  ⟨rfl, rfl, rfl, rfl, rfl, fun _ => rfl, fun _ _ => rfl⟩

theorem live_map_slot (F : Fleet) (x : Handle) :
    ((F.live x).map (fun w => (x.slot, w))).map (fun y => y.2.dir) = (F.live x).map Warrant.dir := by
  rw [Option.map_map]
  rfl

theorem SupervisedAs.currentDir (h : SupervisedAs P F c) :
    (F.currentOf c).map (fun y => y.2.dir) = (P.currentOf c).map (fun y => y.2.dir) := by
  unfold Fleet.currentOf
  rw [h.current]
  cases hc : (P.cars[c]).current with
  | none => rfl
  | some x => exact (live_map_slot F x).trans ((h.dirs x (.inl hc)).trans (live_map_slot P x).symm)

theorem SupervisedAs.topDir (h : SupervisedAs P F c) (hr : (P.cars[c]).holds.reversal = true) :
    (F.topOf c).map (fun y => y.2.dir) = (P.topOf c).map (fun y => y.2.dir) := by
  unfold Fleet.topOf
  rw [h.top hr]
  cases hc : (P.cars[c]).stack.getLast? with
  | none => rfl
  | some x => exact (live_map_slot F x).trans ((h.dirs x (.inr ⟨hr, hc⟩)).trans (live_map_slot P x).symm)

/-- The front computed anew in a run-out is the one the turn began with. -/
theorem SupervisedAs.frontNow (h : SupervisedAs P F c) (hr : (P.cars[c]).holds.reversal = true) :
    F.frontNow c = P.frontNow c := by
  refine frontNow_congr h.last h.pose h.cfg ?_
  have hT := h.topDir hr
  unfold Fleet.supervising Fleet.inRunOut
  rw [h.holds, hr]
  simp only [if_true]
  cases hP : P.topOf c with
  | none =>
    rw [hP, Option.map_none, Option.map_eq_none_iff] at hT
    rw [hT]
    exact h.currentDir
  | some a =>
    rw [hP, Option.map_some, Option.map_eq_some_iff] at hT
    obtain ⟨b, hb, e⟩ := hT
    rw [hb]
    exact congrArg some e

theorem WindMid.start (hP : P.Book) (todo : List Handle) : WindMid c P P todo :=
  ⟨.refl P c, hP, .inl rfl, fun _ _ => rfl⟩

theorem WindMid.live (h : WindMid c P F (x :: hs)) : F.live x = P.live x := by
  simp only [Fleet.live, h.slots x List.mem_cons_self]

theorem WindMid.skip (h : WindMid c P F (x :: hs)) : WindMid c P F hs :=
  ⟨h.toSupervisedAs, h.book, h.front, fun y hy => h.slots y (List.mem_cons_of_mem _ hy)⟩

/-- The front is as at the start where that was up to date. -/
theorem WindMid.front_eq (h : WindMid c P F hs) (hf : (P.cars[c]).front = P.frontNow c) :
    (F.cars[c]).front = (P.cars[c]).front := by
  rcases h.front with e | ⟨-, e⟩
  · exact e
  · rw [e, hf]

/-- In a run-out a current warrant is cut to the floor, whatever the front (R84). -/
theorem cutLimit_of_runOut (hr : (F.cars[w.carriage]).holds.reversal = true) (hs : w.state ≠ .suspended)
    (hg : (G.cars[w.carriage]).cfg = (F.cars[w.carriage]).cfg)
    (hp : (G.cars[w.carriage]).pose = (F.cars[w.carriage]).pose)
    (hh : (G.cars[w.carriage]).holds = (F.cars[w.carriage]).holds) : cutLimit W G w = cutLimit W F w := by
  have hl : ∀ d, (G.cars[w.carriage]).lead d = (F.cars[w.carriage]).lead d := fun d => by
    simp only [Carriage.lead, hp]
  have hf : ∀ P : Fleet, (P.cars[w.carriage]).holds.reversal = true →
      cutFloor W P w = notBehindRear w.dir (runOutFloor W P w.carriage w.dir) w.rear := fun P hP => by
    have hrun : (P.inRunOut w.carriage && w.state != .suspended) = true := by
      rw [Bool.and_eq_true, bne_iff_ne]
      exact ⟨hP, hs⟩
    simp only [cutFloor, hrun, if_true]
  have hfloor : runOutFloor W G w.carriage w.dir = runOutFloor W F w.carriage w.dir := by
    simp only [runOutFloor, runOf, hg, hl]
  simp only [cutLimit, hf F hr, hf G (by rw [hh]; exact hr), hfloor]

/-- A cut in the turn is to the limit that it had at the start. -/
theorem WindMid.cutLimit_kept (h : WindMid c P F hs) (hc : w.carriage = c)
    (hf : w.state = .suspended → (P.cars[c]).front = P.frontNow c) : cutLimit W F w = cutLimit W P w := by
  subst hc
  by_cases hs : w.state = .suspended
  · exact cutLimit_of_car h.cfg h.pose (h.front_eq (hf hs)) (by rw [h.holds])
  · by_cases hr : (P.cars[w.carriage]).holds.reversal = true
    · exact cutLimit_of_runOut hr hs h.cfg h.pose h.holds
    · exact cutLimit_of_car h.cfg h.pose (h.front.resolve_right fun e => hr e.1) (by rw [h.holds])

theorem WindMid.windMeets_kept (h : WindMid c P F hs) (hc : w.carriage = c) : windMeets W F w = windMeets W P w := by
  subst hc
  simp only [windMeets_eq, runOf, h.cfg]

/-- A cut of one warrant leaves the turn where it was, that step done. -/
theorem WindMid.of_cut (h : WindMid c P F (x :: hs)) (hx : ∀ y ∈ hs, y.slot ≠ x.slot) (hcars : G.cars = F.cars)
    (hslots : F.sameSlotsBut G x.slot) (hdir : SlotsAkin Warrant.dir F G) (hG : G.Book) : WindMid c P G hs := by
  refine ⟨⟨?_, ?_, ?_, ?_, ?_, fun hr => ?_, fun y hy => (hdir.live_map y).trans (h.dirs y hy)⟩, hG, ?_, fun y hy =>
    (hslots y.slot (hx y hy)).trans (h.slots y (List.mem_cons_of_mem _ hy))⟩
  all_goals rw [hcars]
  · exact h.cfg
  · exact h.pose
  · exact h.last
  · exact h.holds
  · exact h.current
  · exact h.top hr
  · exact h.front

theorem WindMid.of_shortened (h : WindMid c P F (x :: hs)) (hx : ∀ y ∈ hs, y.slot ≠ x.slot) {i : SlotId}
    (hi : i = x.slot) (hw : (F.slots[i]).warrant = some w) {limit : Int} {m : Option Reason}
    (hG : Shortened W F i w limit m G) : WindMid c P G hs := by
  subst hi
  refine h.of_cut hx hG.cars hG.slots ⟨fun j => ?_, fun j => ?_⟩ (hG.book hw h.book)
  · by_cases hj : j = x.slot
    · rw [hj, hG.slot]
    · rw [hG.slots j hj]
  · by_cases hj : j = x.slot
    · rw [hj, hG.slot, hw]; rfl
    · rw [hG.slots j hj]

theorem WindMid.raise (h : WindMid c P F hs) (d : Detail) : WindMid c P (F.raise d) hs :=
  ⟨⟨h.cfg, h.pose, h.last, h.holds, h.current, h.top, h.dirs⟩, (Akin.raise F d).book.book h.book, h.front, h.slots⟩

/-- A list keeps its last member when another is struck out. -/
theorem getLast?_filter_ne {α : Type} [DecidableEq α] {l : List α} {a : α} (h : l.getLast? ≠ some a) :
    (l.filter (fun y => y != a)).getLast? = l.getLast? := by
  rcases List.eq_nil_or_concat l with rfl | ⟨m, b, rfl⟩
  · rfl
  · rw [List.concat_eq_append, List.getLast?_concat, ne_eq, Option.some.injEq] at h
    have hb : (b != a) = true := bne_iff_ne.mpr h
    simp [hb]

/-- A handle in the slot of a suspended warrant that supervises no run-out cannot supervise. -/
theorem Fleet.Book.not_maySupervise (hP : P.Book) (hw : P.live x = some w) (hs : w.state = .suspended)
    (hno : ¬((P.cars[c]).holds.reversal = true ∧ (P.cars[c]).stack.getLast? = some x)) {y : Handle}
    (hy : P.MaySupervise c y) : y.slot ≠ x.slot := by
  intro e
  rcases hy with hcur | ⟨hr, hlast⟩
  · obtain ⟨u, hu, -, hus⟩ := hP.current c y hcur
    have hxy : y = x := by rw [hP.current_eq hcur, e, Fleet.handleOf_slot_of_live hw]
    rw [hxy, hw, Option.some.injEq] at hu
    exact hus (hu ▸ hs)
  · have hxy : y = x := by
      rw [hP.stacked_eq (List.mem_of_getLast? hlast), e, Fleet.handleOf_slot_of_live hw]
    exact hno ⟨hr, hxy ▸ hlast⟩

/-- The retirement of a suspended warrant that supervises no run-out leaves the turn where it was, that step done. -/
theorem WindMid.of_retired (hP : P.Book) (h : WindMid c P F (x :: hs)) (hx : ∀ y ∈ hs, y.slot ≠ x.slot)
    (hw : P.live x = some w) (hc : w.carriage = c) (hs' : w.state = .suspended)
    (hno : ¬((P.cars[c]).holds.reversal = true ∧ (P.cars[c]).stack.getLast? = some x)) {r : Reason}
    (hU : Retired W F x.slot w r G) : WindMid c P G hs := by
  subst hc
  have hF := Fleet.slot_of_live (h.live.trans hw)
  have hxF := Fleet.handleOf_slot_of_live (h.live.trans hw)
  have hcur : (F.cars[w.carriage]).current ≠ some (F.handleOf x.slot) := fun e => by
    obtain ⟨u, hu, -, hus⟩ := h.book.current _ _ e
    rw [hxF, h.live, hw, Option.some.injEq] at hu
    exact hus (hu ▸ hs')
  have hsup : SupervisedAs P G w.carriage := by
    refine ⟨?_, ?_, ?_, ?_, ?_, fun hr => ?_, fun y hy => ?_⟩
    case refine_7 =>
      have hne := hP.not_maySupervise hw hs' hno hy
      have hlive : G.live y = F.live y := by simp only [Fleet.live, hU.slots y.slot hne]
      rw [hlive]
      exact h.dirs y hy
    all_goals rw [hU.car]
    · exact h.cfg
    · exact h.pose
    · exact h.last
    · exact h.holds
    · rw [if_neg hcur]
      exact h.current
    · rw [hxF, getLast?_filter_ne, h.top hr]
      rw [h.top hr]
      exact fun e => hno ⟨hr, e⟩
  refine ⟨hsup, hU.book h.book hF, ?_, fun y hy =>
    (hU.slots y.slot (hx y hy)).trans (h.slots y (List.mem_cons_of_mem _ hy))⟩
  by_cases hr : (P.cars[w.carriage]).holds.reversal = true
  · refine .inr ⟨hr, ?_⟩
    have e : (G.cars[w.carriage]).front = G.frontNow w.carriage := by
      conv_lhs => rw [hU.car]
      exact if_pos (.inr (by rw [h.holds]; exact hr))
    rw [e, hsup.frontNow hr]
  · have e : (G.cars[w.carriage]).front = (F.cars[w.carriage]).front := by
      rw [hU.car]
      exact if_neg fun e => e.elim hcur fun e => hr (by rw [← h.holds]; exact e)
    rw [e]
    exact h.front

/-- The retirement of a warrant that is not current, no KEY_LOST held, is its first steps alone. -/
theorem retire_aside {i : SlotId} (hw : (F.slots[i]).warrant = some w)
    (hcur : (F.cars[w.carriage]).current ≠ some (F.handleOf i)) (hk : (F.cars[w.carriage]).holds.keyLost = false)
    (r : Reason) : retire W F i r = unlink W F i w r := by
  have hl : losesKey (unlink W F i w r) w = false := by
    rw [losesKey, (unlink_retired r).car]
    simp only [hk, Bool.and_false]
  simp only [retire, hw, decide_eq_false hcur, Bool.false_and, Bool.false_eq_true, if_false, hl]

end WindMid

end Sys2Proof.Machine
end

section
namespace Sys2Proof.Machine

/-! ## A carriage's turn under a rise of the wind -/

/-- A rise changes the warrant: it reaches it, and the warrant is suspended or its cut moves its limit. -/
def windChanges (W : World) (F : Fleet) (w : Warrant) : Bool :=
  windMeets W F w && (decide (w.state = .suspended) || decide (cutLimit W F w ≠ w.limit))

/-- The slot of the warrant `w` as a cut to front without a mark leaves it (R111). -/
def cutSlot (W : World) (F : Fleet) (i : SlotId) (w : Warrant) : Slot :=
  { F.slots[i] with
    warrant := some { w with
      limit := cutLimit W F w
      confirm := w.confirm.filter (fun x => beyond w.dir (cutLimit W F w) x)
      ceiling := fullCeiling W F { w with limit := cutLimit W F w } } }

/-- What a rise leaves in the slot of the warrant `w` of carriage `c` (R140, R143). -/
def windSlot (W : World) (F : Fleet) (c : CarId) (x : Handle) (w : Warrant) : Slot :=
  if windChanges W F w = true then
    if w.state = .suspended then
      if (F.cars[c]).holds.reversal = true ∧ (F.cars[c]).stack.getLast? = some x then markedSlot W F x.slot w .wind
      else { F.slots[x.slot] with warrant := none }
    else cutSlot W F x.slot w
  else F.slots[x.slot]

/-- Where a rise marks the suspended warrant `w`, as it supervises a run-out, its carriage's front is the one of its
last report. -/
def FrontStands (W : World) (F : Fleet) (c : CarId) (x : Handle) (w : Warrant) : Prop :=
  windMeets W F w = true → w.state = .suspended →
    (F.cars[c]).holds.reversal = true ∧ (F.cars[c]).stack.getLast? = some x →
    (F.cars[c]).front = F.frontNow c

/-- CUT_BACK of the wind for one warrant. -/
def windCutBack (c : CarId) (x : Handle) : Detail :=
  { carriage := some c, handle := some x, value := .cutBack .wind }

/-- What the step of the handle `x` leaves of `F`, which stands in the turn of carriage `c` that began at `P`. -/
structure WindStepped (W : World) (c : CarId) (P F : Fleet) (x : Handle) (w : Warrant) (hs : List Handle) (G : Fleet) :
    Prop where
  mid : WindMid c P G hs
  slots : F.sameSlotsBut G x.slot
  slot : FrontStands W P c x w → G.slots[x.slot] = windSlot W P c x w
  notice : G.notices[(1 : Fin 15)] = if windChanges W P w = true then
      (F.notices[(1 : Fin 15)]).occur (windCutBack c x) else F.notices[(1 : Fin 15)]

section WindStepped

variable {W : World} {F G P : Fleet} {c : CarId} {x : Handle} {hs : List Handle} {w : Warrant}

/-- A raised CUT_BACK of the wind is one more occurrence of its kind. -/
theorem windCutBack_notice (h : Hushed 1 F P) (c : CarId) (x : Handle) :
    (P.raise (windCutBack c x)).notices[(1 : Fin 15)] = (F.notices[(1 : Fin 15)]).occur (windCutBack c x) :=
  ((Fleet.raise_get _ _ _).trans (if_pos rfl)).trans (congrArg (fun n : Notice => n.occur _) h)

theorem WindMid.cutSlot_kept (h : WindMid c P F (x :: hs)) (hc : w.carriage = c)
    (hf : w.state = .suspended → (P.cars[c]).front = P.frontNow c) : cutSlot W F x.slot w = cutSlot W P x.slot w := by
  have hx := h.cutLimit_kept (W := W) hc hf
  have hslot := h.slots x List.mem_cons_self
  subst hc
  have hceil : fullCeiling W F { w with limit := cutLimit W P w } =
      fullCeiling W P { w with limit := cutLimit W P w } :=
    fullCeiling_of_car h.cfg h.pose
  simp only [cutSlot, hx, hslot, hceil]

theorem WindMid.markedSlot_kept (h : WindMid c P F (x :: hs)) (hc : w.carriage = c)
    (hf : (P.cars[c]).front = P.frontNow c) (r : Reason) :
    markedSlot W F x.slot w r = markedSlot W P x.slot w r := by
  have hslot := h.slots x List.mem_cons_self
  subst hc
  exact markedSlot_of_car (by rw [hslot]) h.cfg h.pose (h.front_eq hf) (by rw [h.holds])

/-- A warrant that the rise does not change keeps its place. -/
theorem WindMid.stepped_idle (h : WindMid c P F (x :: hs)) (hn : windChanges W P w = false) :
    WindStepped W c P F x w hs F := by
  refine ⟨h.skip, fun _ _ => rfl, fun _ => ?_, ?_⟩
  · rw [windSlot, if_neg (by rw [hn]; decide)]
    exact h.slots x List.mem_cons_self
  · rw [if_neg (by rw [hn]; decide)]

/-- A current warrant that the rise reaches is cut to its front. -/
theorem WindMid.stepped_current (h : WindMid c P F (x :: hs)) (hx : ∀ y ∈ hs, y.slot ≠ x.slot) (hw : P.live x = some w)
    (hc : w.carriage = c) (hm : windMeets W P w = true) (hs' : w.state ≠ .suspended) :
    WindStepped W c P F x w hs (cutFront W .wind F x.slot w) := by
  have hlim := h.cutLimit_kept (W := W) hc (fun e => absurd e hs')
  have hl := h.live.trans hw
  rcases cutFront_cases W .wind F x.slot w with ⟨he, e⟩ | ⟨he, e⟩
  · rw [hlim] at he
    rw [e]
    exact h.stepped_idle (by rw [windChanges, hm, decide_eq_false hs', decide_eq_false (not_not.mpr he)]; rfl)
  · have hyes : windChanges W P w = true := by
      rw [hlim] at he
      rw [windChanges, hm, decide_eq_true he, Bool.or_true]
      rfl
    have hS := shorten_shortened (W := W) (cutLimit W F w) (Fleet.slot_of_live hl)
    rw [e, Fleet.handleOf_slot_of_live hl, hc]
    refine ⟨(h.of_shortened hx rfl (Fleet.slot_of_live hl) hS).raise _, hS.slots, fun _ => ?_, ?_⟩
    · rw [windSlot, if_pos hyes, if_neg hs', ← h.cutSlot_kept hc (fun e => absurd e hs')]
      exact hS.slot
    · rw [if_pos hyes]
      exact windCutBack_notice (.of_eq hS.notices) c x

/-- A suspended warrant that the rise reaches is marked, or retires. -/
theorem WindMid.stepped_suspended (hP : P.Book) (hk : (P.cars[c]).holds.keyLost = false) (h : WindMid c P F (x :: hs))
    (hx : ∀ y ∈ hs, y.slot ≠ x.slot) (hw : P.live x = some w) (hc : w.carriage = c) (hm : windMeets W P w = true)
    (hs' : w.state = .suspended) : WindStepped W c P F x w hs (windSuspended W F x w) := by
  subst hc
  have hl := h.live.trans hw
  have hslot := Fleet.slot_of_live hl
  have hyes : windChanges W P w = true := by
    rw [windChanges, hm, decide_eq_true hs', Bool.true_or]
    rfl
  have hsup : ((F.cars[w.carriage]).holds.reversal = true ∧ (F.cars[w.carriage]).stack.getLast? = some x) ↔
      ((P.cars[w.carriage]).holds.reversal = true ∧ (P.cars[w.carriage]).stack.getLast? = some x) := by
    rw [h.holds]
    exact and_congr_right fun hr => by rw [h.top hr]
  rw [windSuspended_eq]
  by_cases ht : (P.cars[w.carriage]).holds.reversal = true ∧ (P.cars[w.carriage]).stack.getLast? = some x
  · rw [if_pos (hsup.mpr ht)]
    have hM := markWarrant_marked (W := W) .wind hslot
    refine ⟨(h.of_shortened hx rfl hslot hM).raise _, hM.slots, fun hf => ?_, ?_⟩
    · rw [windSlot, if_pos hyes, if_pos hs', if_pos ht, ← h.markedSlot_kept rfl (hf hm hs' ht)]
      exact hM.slot
    · rw [if_pos hyes]
      exact windCutBack_notice (.of_eq hM.notices) _ x
  · rw [if_neg (mt hsup.mp ht)]
    have hcur : (F.cars[w.carriage]).current ≠ some (F.handleOf x.slot) := fun e => by
      obtain ⟨u, hu, -, hus⟩ := h.book.current _ _ e
      rw [Fleet.handleOf_slot_of_live hl, hl, Option.some.injEq] at hu
      exact hus (hu ▸ hs')
    rw [retire_aside hslot hcur (by rw [h.holds, hk])]
    have hU : Retired W F x.slot w .wind (unlink W F x.slot w .wind) := unlink_retired .wind
    refine ⟨(h.of_retired hP hx hw rfl hs' ht hU).raise _, hU.slots, fun _ => ?_, ?_⟩
    · rw [windSlot, if_pos hyes, if_pos hs', if_neg ht, ← h.slots x List.mem_cons_self]
      exact hU.slot
    · rw [if_pos hyes]
      exact windCutBack_notice (.of_eq hU.notices) _ x

/-- The step of one handle in its carriage's turn. -/
theorem WindMid.stepped (hP : P.Book) (hk : (P.cars[c]).holds.keyLost = false) (h : WindMid c P F (x :: hs))
    (hx : ∀ y ∈ hs, y.slot ≠ x.slot) (hw : P.live x = some w) (hc : w.carriage = c) :
    WindStepped W c P F x w hs (windStep W W.wind.state F x).1 ∧
      (windStep W W.wind.state F x).2 = windMeets W P w := by
  have hl := h.live.trans hw
  have hm := h.windMeets_kept (W := W) hc
  by_cases hmeets : windMeets W P w = true
  · have hF := hm.trans hmeets
    by_cases hs' : w.state = .suspended
    · rw [windStep_suspended hl hF hs', hmeets]
      exact ⟨h.stepped_suspended hP hk hx hw hc hmeets hs', rfl⟩
    · rw [windStep_current hl hF hs', hmeets]
      exact ⟨h.stepped_current hx hw hc hmeets hs', rfl⟩
  · have hno := eq_false_of_ne_true hmeets
    rw [windStep_unmet hl (hm.trans hno), hno]
    exact ⟨h.stepped_idle (by rw [windChanges, hno]; rfl), rfl⟩

end WindStepped

/-- What the steps of `hs` leave of `F`, which stands in the turn of carriage `c` that began at `P`. -/
structure WindTaken (W : World) (c : CarId) (P F : Fleet) (hs : List Handle) (out : Fleet × List Reached) : Prop where
  mid : WindMid c P out.1 []
  slots : ∀ j : SlotId, (∀ x ∈ hs, x.slot ≠ j) → out.1.slots[j] = F.slots[j]
  slot : ∀ x ∈ hs, ∀ w, P.live x = some w → FrontStands W P c x w → out.1.slots[x.slot] = windSlot W P c x w
  reached : out.2 = (hs.filter (fun x => (P.live x).any (windMeets W P))).map (fun x => (c, x))
  notice : out.1.notices[(1 : Fin 15)] =
    cutBacks .wind ((hs.filter (fun x => (P.live x).any (windChanges W P))).map (fun x => (c, x)))
      F.notices[(1 : Fin 15)]

section WindTaken

variable {W : World} {F P : Fleet} {c : CarId} {hs : List Handle}

/-- The steps of a turn, one after the other. -/
theorem WindMid.taken (hP : P.Book) (hk : (P.cars[c]).holds.keyLost = false) (h : WindMid c P F hs)
    (hnd : (hs.map Handle.slot).Nodup) (hmine : ∀ x ∈ hs, ∃ w, P.live x = some w ∧ w.carriage = c) :
    WindTaken W c P F hs (cutEach (windStep W W.wind.state) c hs F) := by
  induction hs generalizing F with
  | nil => exact ⟨h, fun _ _ => rfl, fun x hx => absurd hx List.not_mem_nil, rfl, rfl⟩
  | cons x hs ih =>
    obtain ⟨hnot, hnd⟩ := List.nodup_cons.mp hnd
    have hx : ∀ y ∈ hs, y.slot ≠ x.slot := fun y hy e => hnot (e ▸ List.mem_map_of_mem hy)
    obtain ⟨w, hw, hc⟩ := hmine x List.mem_cons_self
    obtain ⟨hstep, hhit⟩ := h.stepped (W := W) hP hk hx hw hc
    have hrest := ih hstep.mid hnd fun y hy => hmine y (List.mem_cons_of_mem _ hy)
    have hmeets : (P.live x).any (windMeets W P) = windMeets W P w := by rw [hw]; rfl
    have hchanges : (P.live x).any (windChanges W P) = windChanges W P w := by rw [hw]; rfl
    refine ⟨hrest.mid, fun j hj => ?_, fun y hy u hu hf => ?_, ?_, ?_⟩
    · exact (hrest.slots j fun y hy => hj y (List.mem_cons_of_mem _ hy)).trans
        (hstep.slots j (hj x List.mem_cons_self).symm)
    · rcases List.mem_cons.mp hy with rfl | hy
      · rw [hw, Option.some.injEq] at hu
        subst hu
        exact (hrest.slots y.slot hx).trans (hstep.slot hf)
      · exact hrest.slot y hy u hu hf
    · have hreached := hrest.reached
      rw [List.filter_cons, hmeets]
      simp only [cutEach, hhit, hreached]
      split <;> rfl
    · refine hrest.notice.trans ?_
      rw [List.filter_cons, hchanges, hstep.notice]
      split <;> rfl

/-- The handles of a carriage name as many slots. -/
theorem Fleet.Book.warrantsOf_slots (hP : P.Book) (c : CarId) : ((warrantsOf P c).map Handle.slot).Nodup := by
  have hnd : (warrantsOf P c).Nodup := by
    unfold warrantsOf
    cases hc : (P.cars[c]).current with
    | none => rw [Option.toList_none, List.append_nil]; exact hP.nodup c
    | some h =>
      refine List.nodup_append.mpr ⟨hP.nodup c, List.nodup_singleton h, fun a ha b hb e => ?_⟩
      obtain ⟨w, hw, -, hs⟩ := hP.current c h hc
      obtain ⟨u, hu, -, hus⟩ := hP.stacked c a ha
      rw [e, List.mem_singleton.mp hb, hw, Option.some.injEq] at hu
      exact hs (hu ▸ hus)
  refine List.Nodup.map_on (fun a ha b hb e => ?_) hnd
  obtain ⟨w, hw, -⟩ := hP.live_of_warrantsOf ha
  obtain ⟨u, hu, -⟩ := hP.live_of_warrantsOf hb
  rw [← Fleet.handleOf_slot_of_live hw, e, Fleet.handleOf_slot_of_live hu]

/-- A carriage's turn under which no KEY_LOST is held. -/
theorem windOn_taken (hP : P.Book) (hk : (P.cars[c]).holds.keyLost = false) :
    WindTaken W c P P (warrantsOf P c) (windOn W c P) :=
  (WindMid.start hP _).taken hP hk (hP.warrantsOf_slots c) fun _ hx => hP.live_of_warrantsOf hx

end WindTaken

end Sys2Proof.Machine
end

section
namespace Sys2Proof.Machine

/-! ## A rise of the wind over all carriages -/

section WindRise

variable {W : World} {A F P Q : Fleet} {c : CarId} {x : Handle} {i : SlotId} {w : Warrant}

theorem SameFor.windMeets_eq (hs : SameFor A c P Q) (hc : w.carriage = c) : windMeets W Q w = windMeets W P w := by
  subst hc
  simp only [Machine.windMeets_eq, runOf, hs.car]

theorem SameFor.cutLimit_eq (hs : SameFor A c P Q) (hc : w.carriage = c) : cutLimit W Q w = cutLimit W P w := by
  subst hc
  exact cutLimit_of_car (by rw [hs.car]) (by rw [hs.car]) (by rw [hs.car]) (by rw [hs.car])

theorem SameFor.windChanges_eq (hs : SameFor A c P Q) (hc : w.carriage = c) :
    windChanges W Q w = windChanges W P w := by
  rw [windChanges, windChanges, hs.windMeets_eq hc, hs.cutLimit_eq hc]

theorem SameFor.windSlot_eq (hs : SameFor A c P Q) (hi : A.Owns c x.slot) (hc : w.carriage = c) :
    windSlot W Q c x w = windSlot W P c x w := by
  have hslot := hs.slots x.slot hi
  have hlim := hs.cutLimit_eq (W := W) hc
  have hchg := hs.windChanges_eq (W := W) hc
  have hcar := hs.car
  subst hc
  have hceil : fullCeiling W Q { w with limit := cutLimit W P w } =
      fullCeiling W P { w with limit := cutLimit W P w } :=
    fullCeiling_of_car (by rw [hcar]) (by rw [hcar])
  simp only [windSlot, cutSlot, markedSlot, hchg, hcar, hslot, hlim, hceil]

theorem SameFor.frontStands (hs : SameFor A c P Q) (hP : InPlace A P) (hc : w.carriage = c)
    (hf : FrontStands W P c x w) : FrontStands W Q c x w := fun hm hsus ht => by
  rw [hs.windMeets_eq hc] at hm
  rw [hs.car] at ht ⊢
  rw [hs.frontNow hP]
  exact hf hm hsus ht

theorem SameFor.warrantsOf_eq (hs : SameFor A c P Q) : warrantsOf Q c = warrantsOf P c := by
  rw [warrantsOf, warrantsOf, hs.car]

/-- A carriage's list is filtered alike by what a warrant of it settles. -/
theorem SameFor.filter_eq (hs : SameFor A c P Q) (hP : InPlace A P) {p q : Warrant → Bool}
    (hpq : ∀ w : Warrant, w.carriage = c → q w = p w) :
    (warrantsOf Q c).filter (fun x => (Q.live x).any q) = (warrantsOf P c).filter (fun x => (P.live x).any p) := by
  rw [hs.warrantsOf_eq]
  refine List.filter_congr fun x hx => ?_
  obtain ⟨w, hw, hc⟩ := hP.book.live_of_warrantsOf hx
  rw [hs.live (hP.owns_of_warrantsOf hx), hw]
  exact hpq w hc

/-- Each carriage under which no KEY_LOST is held takes its turn as the rise found it. -/
theorem cutForWind_taken (W : World) (hA : A.Book) (hk : (A.cars[c]).holds.keyLost = false) :
    ∃ Q, SameFor A c A Q ∧ WindTaken W c Q Q (warrantsOf Q c) (windOn W c Q) ∧
      SameFor A c (windOn W c Q).1 (cutForWind W W.wind.state A).1 := by
  obtain ⟨Q, hQ, hAQ, -, hQG⟩ := cutForWind_each W hA c
  exact ⟨Q, hAQ, windOn_taken hQ.book (by rw [hAQ.car]; exact hk), hQG⟩

theorem Fleet.Book.mem_warrantsOf (hA : A.Book) (hw : (A.slots[i]).warrant = some w) :
    A.handleOf i ∈ warrantsOf A w.carriage := by
  have hown := hA.owned i w hw
  split at hown
  · exact List.mem_append_left _ hown
  · exact List.mem_append_right _ (Option.mem_toList.mpr hown)

/-- The slot of each warrant after the rise. -/
theorem cutForWind_slot (W : World) (hA : A.Book) (hw : (A.slots[i]).warrant = some w)
    (hk : (A.cars[w.carriage]).holds.keyLost = false) (hf : FrontStands W A w.carriage (A.handleOf i) w) :
    (cutForWind W W.wind.state A).1.slots[i] = windSlot W A w.carriage (A.handleOf i) w := by
  obtain ⟨Q, hAQ, hT, hQG⟩ := cutForWind_taken W hA hk
  have hown : A.Owns w.carriage (A.handleOf i).slot := ⟨w, hw, rfl⟩
  have hlive : Q.live (A.handleOf i) = some w := by rw [hAQ.live hown, Fleet.live_handleOf, hw]
  have hmem : A.handleOf i ∈ warrantsOf Q w.carriage := by
    rw [hAQ.warrantsOf_eq]
    exact hA.mem_warrantsOf hw
  have hslot := hT.slot _ hmem w hlive (hAQ.frontStands (.refl hA) rfl hf)
  rw [hAQ.windSlot_eq hown rfl] at hslot
  exact (hQG.slots i hown).trans hslot

/-- The current warrant and the hold set of a carriage after the rise. -/
theorem cutForWind_car (W : World) (hA : A.Book) (hk : (A.cars[c]).holds.keyLost = false) :
    ((cutForWind W W.wind.state A).1.cars[c]).current = (A.cars[c]).current ∧
      ((cutForWind W W.wind.state A).1.cars[c]).holds = (A.cars[c]).holds := by
  obtain ⟨Q, hAQ, hT, hQG⟩ := cutForWind_taken W hA hk
  rw [hQG.car, hT.mid.current, hT.mid.holds, hAQ.car]
  exact ⟨rfl, rfl⟩

/-- The handle of a freed slot is on no stack of its carriage. -/
theorem cutForWind_unstacked (W : World) (hA : A.Book) (hw : (A.slots[i]).warrant = some w)
    (hk : (A.cars[w.carriage]).holds.keyLost = false)
    (hfree : ((cutForWind W W.wind.state A).1.slots[i]).warrant = none) :
    A.handleOf i ∉ ((cutForWind W W.wind.state A).1.cars[w.carriage]).stack := by
  obtain ⟨Q, -, hT, hQG⟩ := cutForWind_taken W hA hk
  rw [hQG.car]
  intro hm
  obtain ⟨u, hu, -⟩ := hT.mid.book.stacked _ _ hm
  have hslot : ((windOn W w.carriage Q).1.slots[i]).warrant = some u := Fleet.slot_of_live hu
  rw [hQG.slots i ⟨w, hw, rfl⟩, hslot] at hfree
  cases hfree

/-- The top of the stack of a carriage in a run-out stays there. -/
theorem cutForWind_top (W : World) (hA : A.Book) (hk : (A.cars[c]).holds.keyLost = false)
    (ht : (A.cars[c]).holds.reversal = true ∧ (A.cars[c]).stack.getLast? = some x) :
    x ∈ ((cutForWind W W.wind.state A).1.cars[c]).stack := by
  obtain ⟨Q, hAQ, hT, hQG⟩ := cutForWind_taken W hA hk
  rw [← hAQ.car] at ht
  rw [hQG.car]
  exact List.mem_of_getLast? ((hT.mid.top ht.1).trans ht.2)

/-- A warrant on a run that is not EXPOSED is kept. -/
theorem cutForWind_sheltered (W : World) (hA : A.Book) (hw : (A.slots[i]).warrant = some w)
    (hx : (runOf W A w.carriage).exposed = false) : (cutForWind W W.wind.state A).1.slots[i] = A.slots[i] := by
  obtain ⟨Q, hQ, hAQ, -, hQG⟩ := cutForWind_each W hA w.carriage
  have hQx : (runOf W Q w.carriage).exposed = false := by
    simp only [runOf, hAQ.car]
    exact hx
  rw [windOn_sheltered hQ.book hQx] at hQG
  exact (hAQ.trans hQG).slots i ⟨w, hw, rfl⟩

theorem cutForWind_reached (W : World) (hA : A.Book) (hk : ∀ c : CarId, (A.cars[c]).holds.keyLost = false) :
    (cutForWind W W.wind.state A).2 = reachedBy A (fun _ w => windMeets W A w) :=
  cutCars_reached (turn := windOn W) (fun _ _ hP => .windOn hP) (List.finRange 16) (List.nodup_finRange 16)
    (InPlace.refl hA) fun c _ Q hQ hAQ => by
      rw [(windOn_taken (W := W) hQ.book (by rw [hAQ.car]; exact hk c)).reached,
        hAQ.filter_eq (.refl hA) fun w hc => hAQ.windMeets_eq hc]

/-- CUT_BACK for each warrant of carriage `c` that a rise changes. -/
def carCutBacks (W : World) (A : Fleet) (n : Notice) (c : CarId) : Notice :=
  cutBacks .wind (((warrantsOf A c).filter (fun x => (A.live x).any (windChanges W A))).map (fun x => (c, x))) n

theorem carCutBacks_foldl (W : World) (A : Fleet) (n : Notice) : (List.finRange 16).foldl (carCutBacks W A) n =
    cutBacks .wind (reachedBy A (fun _ w => windChanges W A w)) n := by
  unfold reachedBy
  generalize List.finRange 16 = cs
  induction cs generalizing n with
  | nil => rfl
  | cons c cs ih =>
    rw [List.foldl_cons, ih, List.flatMap_cons]
    exact (List.foldl_append ..).symm

theorem windOn_cutBacks (hQ : InPlace A Q) (hAQ : SameFor A c A Q) (hA : A.Book)
    (hk : (A.cars[c]).holds.keyLost = false) :
    (windOn W c Q).1.notices[(1 : Fin 15)] = carCutBacks W A Q.notices[(1 : Fin 15)] c := by
  rw [(windOn_taken (W := W) hQ.book (by rw [hAQ.car]; exact hk)).notice,
    hAQ.filter_eq (.refl hA) fun w hc => hAQ.windChanges_eq hc]
  rfl

theorem cutForWind_cutBacks (W : World) (hA : A.Book) (hk : ∀ c : CarId, (A.cars[c]).holds.keyLost = false) :
    (cutForWind W W.wind.state A).1.notices[(1 : Fin 15)] =
      cutBacks .wind (reachedBy A (fun _ w => windChanges W A w)) A.notices[(1 : Fin 15)] := by
  have h := cutCars_notice (turn := windOn W) (N := fun c n => carCutBacks W A n c) (fun _ _ hP => .windOn hP)
    (List.finRange 16) (List.nodup_finRange 16) (InPlace.refl hA) fun c _ Q hQ hAQ => windOn_cutBacks hQ hAQ hA (hk c)
  rw [← carCutBacks_foldl, cutForWind_eq]
  exact h

end WindRise

end Sys2Proof.Machine
end

section
namespace Sys2Proof.Machine

/-! ## A change of the wind state (R140) -/

section WindChange

variable {W : World} {F : Fleet} {old : WindState} {i : SlotId} {w : Warrant}

/-- WIND, as a change of state raises it. -/
def windDetail (W : World) (old : WindState) : Detail :=
  { carriage := none, handle := none, value := .wind old W.wind.state W.wind.gust }

/-- The turns of a rise with the warrants they reached, WIND raised before them. -/
def risen (W : World) (old : WindState) (F : Fleet) : Fleet × List Reached :=
  cutForWind W W.wind.state (F.raise (windDetail W old))

theorem risen_eq (W : World) (old : WindState) (F : Fleet) :
    risen W old F = cutForWind W W.wind.state (F.raise (windDetail W old)) := rfl

/-- CLOSE_CALL, as a rise that reached `reached` raises it. -/
def closeCallDetail (W : World) (reached : List Reached) : Detail :=
  { carriage := (lastReached reached).1, handle := (lastReached reached).2
    value := .closeCall W.wind.state reached.length }

theorem windChanged_same (h : old = W.wind.state) : windChanged W old F = F := if_pos h

theorem windChanged_fall (h : old ≠ W.wind.state) (hr : W.wind.state.rank ≤ old.rank) :
    windChanged W old F = F.raise (windDetail W old) :=
  (if_neg h).trans (if_neg (Nat.not_lt.mpr hr))

theorem windChanged_rise (hr : old.rank < W.wind.state.rank) : windChanged W old F =
    if old.rank ≤ 1 ∧ 2 ≤ W.wind.state.rank then
      (risen W old F).1.raise (closeCallDetail W (risen W old F).2)
    else (risen W old F).1 := by
  have hne : old ≠ W.wind.state := fun e => absurd hr (by rw [e]; exact Nat.lt_irrefl _)
  simp only [windChanged, if_neg hne, if_pos hr, risen, windDetail, closeCallDetail]

/-- Without a rise no warrant and no carriage changes, and no CLOSE_CALL is raised. -/
theorem windChanged_still (hr : ¬old.rank < W.wind.state.rank) : (windChanged W old F).cars = F.cars ∧
    (windChanged W old F).slots = F.slots ∧ Hushed 6 F (windChanged W old F) := by
  by_cases h : old = W.wind.state
  · rw [windChanged_same h]
    exact ⟨rfl, rfl, .of_eq rfl⟩
  · rw [windChanged_fall h (Nat.not_lt.mp hr)]
    exact ⟨rfl, rfl, .raise _ (show (6 : Fin 15) ≠ 5 by decide)⟩

/-- A rise leaves what its turns leave, but for CLOSE_CALL. -/
theorem windChanged_risen (hr : old.rank < W.wind.state.rank) :
    (windChanged W old F).cars = (risen W old F).1.cars ∧ (windChanged W old F).slots = (risen W old F).1.slots ∧
      (windChanged W old F).occupancy = (risen W old F).1.occupancy ∧
      (windChanged W old F).holders = (risen W old F).1.holders ∧
      ∀ n : Fin 15, n ≠ 6 → Hushed n (risen W old F).1 (windChanged W old F) := by
  rw [windChanged_rise hr]
  generalize risen W old F = out
  split
  · exact ⟨rfl, rfl, rfl, rfl, fun n hn => .raise _ hn⟩
  · exact ⟨rfl, rfl, rfl, rfl, fun n _ => .of_eq rfl⟩

theorem risen_hushed (W : World) (old : WindState) (F : Fleet) {n : Fin 15} (h1 : n ≠ 1) (h8 : n ≠ 8) (h9 : n ≠ 9) :
    Hushed n (F.raise (windDetail W old)) (risen W old F).1 := .cutForWind W _ h1 h8 h9

theorem windDetail_hushed (W : World) (old : WindState) (F : Fleet) {n : Fin 15} (h5 : n ≠ 5) :
    Hushed n F (F.raise (windDetail W old)) := .raise F h5

/-- WIND is raised once at a rise. -/
theorem windChanged_wind (hr : old.rank < W.wind.state.rank) : (windChanged W old F).notices[(5 : Fin 15)] =
    (F.notices[(5 : Fin 15)]).occur (windDetail W old) := by
  obtain ⟨-, -, -, -, hn⟩ := windChanged_risen (F := F) hr
  have h1 := hn 5 (by decide)
  have h2 := risen_hushed W old F (n := 5) (by decide) (by decide) (by decide)
  have h3 : (F.raise (windDetail W old)).notices[(5 : Fin 15)] = _ := (Fleet.raise_get _ _ _).trans (if_pos rfl)
  exact Eq.trans (h2.trans h1) h3

/-- No CLOSE_CALL is raised before the turns are done. -/
theorem risen_closeCall (W : World) (old : WindState) (F : Fleet) : Hushed 6 F (risen W old F).1 :=
  (windDetail_hushed W old F (by decide)).trans (risen_hushed W old F (by decide) (by decide) (by decide))

theorem windChanged_closeCall (hr : old.rank < W.wind.state.rank) (hc : old.rank ≤ 1 ∧ 2 ≤ W.wind.state.rank) :
    (windChanged W old F).notices[(6 : Fin 15)] =
      (F.notices[(6 : Fin 15)]).occur (closeCallDetail W (risen W old F).2) := by
  rw [windChanged_rise hr, if_pos hc]
  have h6 := risen_closeCall W old F
  generalize risen W old F = out at h6
  exact ((Fleet.raise_get _ _ _).trans (if_pos rfl)).trans (congrArg (fun n : Notice => n.occur _) h6)

/-- CLOSE_CALL is counted once when the state goes from rank 0 or 1 to rank 2 or 3. -/
theorem windChanged_closeCall_count (W : World) (old : WindState) (F : Fleet) :
    ((windChanged W old F).notices[(6 : Fin 15)]).count =
      if old.rank ≤ 1 ∧ 2 ≤ W.wind.state.rank then min 255 ((F.notices[(6 : Fin 15)]).count + 1)
      else (F.notices[(6 : Fin 15)]).count := by
  by_cases hc : old.rank ≤ 1 ∧ 2 ≤ W.wind.state.rank
  · rw [if_pos hc, windChanged_closeCall (by omega) hc]
    rfl
  · rw [if_neg hc]
    have hkept : Hushed 6 F (windChanged W old F) := by
      by_cases hr : old.rank < W.wind.state.rank
      · rw [windChanged_rise hr, if_neg hc]
        exact risen_closeCall W old F
      · exact (windChanged_still hr).2.2
    exact congrArg Notice.count hkept

theorem raise_book (hF : F.Book) (d : Detail) : (F.raise d).Book := (Akin.raise F d).book.book hF

/-- Raising WIND changes nothing that a slot, a front or a carriage's part in the rise reads. -/
theorem windSlot_raise (d : Detail) (c : CarId) (x : Handle) (w : Warrant) :
    windSlot W (F.raise d) c x w = windSlot W F c x w := rfl

theorem risen_slot (hF : F.Book) (hk : ∀ c : CarId, (F.cars[c]).holds.keyLost = false)
    (hw : (F.slots[i]).warrant = some w) (hf : FrontStands W F w.carriage (F.handleOf i) w) :
    (risen W old F).1.slots[i] = windSlot W F w.carriage (F.handleOf i) w := by
  rw [risen_eq, cutForWind_slot W (raise_book hF (windDetail W old)) hw (hk _) hf]
  exact windSlot_raise _ _ _ _

/-- A rise leaves the slot of each warrant as R140 to R143 say. -/
theorem windChanged_slot (hF : F.Book) (hk : ∀ c : CarId, (F.cars[c]).holds.keyLost = false)
    (hr : old.rank < W.wind.state.rank) (hw : (F.slots[i]).warrant = some w)
    (hf : FrontStands W F w.carriage (F.handleOf i) w) :
    (windChanged W old F).slots[i] = windSlot W F w.carriage (F.handleOf i) w := by
  obtain ⟨-, hslots, -⟩ := windChanged_risen (F := F) hr
  rw [hslots]
  exact risen_slot hF hk hw hf

theorem windSlot_kept {c : CarId} {x : Handle} (h : windChanges W F w = false) : windSlot W F c x w = F.slots[x.slot] :=
  if_neg (by rw [h]; decide)

/-- A current warrant under a rise (R141). -/
theorem windSlot_current {c : CarId} (hs : w.state ≠ .suspended) : windSlot W F c (F.handleOf i) w =
    if windMeets W F w = true ∧ cutLimit W F w ≠ w.limit then cutSlot W F i w else F.slots[i] := by
  have hiff : windChanges W F w = true ↔ windMeets W F w = true ∧ cutLimit W F w ≠ w.limit := by
    rw [windChanges, Bool.and_eq_true, decide_eq_false hs, Bool.false_or, decide_eq_true_eq]
  unfold windSlot
  by_cases h : windChanges W F w = true
  · rw [if_pos h, if_pos (hiff.mp h), if_neg hs]
    rfl
  · rw [if_neg h, if_neg (mt hiff.mpr h)]
    rfl

/-- A suspended warrant that a rise reaches (R143). -/
theorem windSlot_suspended {c : CarId} {x : Handle} (hs : w.state = .suspended) (hm : windMeets W F w = true) :
    windSlot W F c x w = if (F.cars[c]).holds.reversal = true ∧ (F.cars[c]).stack.getLast? = some x then
      markedSlot W F x.slot w .wind else { F.slots[x.slot] with warrant := none } := by
  have h : windChanges W F w = true := by
    rw [windChanges, hm, decide_eq_true hs]
    rfl
  rw [windSlot, if_pos h, if_pos hs]

/-- The current warrant and the hold set of each carriage outlast the change. -/
theorem windChanged_car (hF : F.Book) (hk : ∀ c : CarId, (F.cars[c]).holds.keyLost = false) (c : CarId) :
    ((windChanged W old F).cars[c]).current = (F.cars[c]).current ∧
      ((windChanged W old F).cars[c]).holds = (F.cars[c]).holds := by
  by_cases hr : old.rank < W.wind.state.rank
  · rw [(windChanged_risen hr).1, risen_eq]
    exact cutForWind_car W (raise_book hF (windDetail W old)) (hk c)
  · rw [(windChanged_still hr).1]
    exact ⟨rfl, rfl⟩

/-- A warrant on a run that is not EXPOSED is kept. -/
theorem windChanged_sheltered (hF : F.Book) (hw : (F.slots[i]).warrant = some w)
    (hx : (runOf W F w.carriage).exposed = false) : (windChanged W old F).slots[i] = F.slots[i] := by
  by_cases hr : old.rank < W.wind.state.rank
  · rw [(windChanged_risen hr).2.1, risen_eq]
    exact cutForWind_sheltered W (raise_book hF (windDetail W old)) hw hx
  · rw [(windChanged_still hr).2.1]

/-- A suspended warrant under a rise: kept, retired off its stack, or marked on it (R143). -/
theorem windChanged_suspended (hF : F.Book) (hk : ∀ c : CarId, (F.cars[c]).holds.keyLost = false)
    (hr : old.rank < W.wind.state.rank) (hw : (F.slots[i]).warrant = some w) (hs : w.state = .suspended) :
    let car := F.cars[w.carriage]
    let supervises := car.holds.reversal = true ∧ car.stack.getLast? = some (F.handleOf i)
    let G := windChanged W old F
    (windMeets W F w = false → G.slots[i] = F.slots[i]) ∧
      (windMeets W F w = true → ¬supervises → G.slots[i] = { F.slots[i] with warrant := none } ∧
        F.handleOf i ∉ (G.cars[w.carriage]).stack) ∧
      (windMeets W F w = true → supervises → car.front = F.frontNow w.carriage →
        G.slots[i] = markedSlot W F i w .wind ∧ F.handleOf i ∈ (G.cars[w.carriage]).stack) := by
  intro car supervises G
  obtain ⟨hcars, hslots, -⟩ := windChanged_risen (F := F) hr
  have hA := raise_book hF (windDetail W old)
  have hslot : FrontStands W F w.carriage (F.handleOf i) w → G.slots[i] = _ := windChanged_slot hF hk hr hw
  refine ⟨fun hm => ?_, fun hm hno => ?_, fun hm ht hf => ?_⟩
  · rw [hslot fun e => absurd e (by rw [hm]; decide)]
    exact windSlot_kept (by rw [windChanges, hm]; rfl)
  · have hfree : G.slots[i] = { F.slots[i] with warrant := none } := by
      rw [hslot fun _ _ ht => absurd ht hno, windSlot_suspended hs hm]
      exact if_neg hno
    refine ⟨hfree, ?_⟩
    rw [hslots, risen_eq] at hfree
    rw [hcars, risen_eq]
    exact cutForWind_unstacked W hA hw (hk _) (by rw [hfree])
  · refine ⟨?_, ?_⟩
    · rw [hslot fun _ _ _ => hf, windSlot_suspended hs hm]
      exact if_pos ht
    · rw [hcars, risen_eq]
      exact cutForWind_top W hA (hk _) ht

theorem risen_reached (hF : F.Book) (hk : ∀ c : CarId, (F.cars[c]).holds.keyLost = false) :
    (risen W old F).2 = reachedBy F (fun _ w => windMeets W F w) := by
  rw [risen_eq]
  exact cutForWind_reached W (raise_book hF (windDetail W old)) hk

theorem risen_cutBacks (hF : F.Book) (hk : ∀ c : CarId, (F.cars[c]).holds.keyLost = false) :
    (risen W old F).1.notices[(1 : Fin 15)] =
      cutBacks .wind (reachedBy F (fun _ w => windChanges W F w)) F.notices[(1 : Fin 15)] := by
  have hkept : Hushed 1 F (F.raise (windDetail W old)) := windDetail_hushed W old F (by decide)
  rw [risen_eq, cutForWind_cutBacks W (raise_book hF (windDetail W old)) hk]
  exact congrArg (cutBacks .wind (reachedBy F (fun _ w => windChanges W F w))) hkept

theorem windChanged_cutBacks (hF : F.Book) (hk : ∀ c : CarId, (F.cars[c]).holds.keyLost = false)
    (hr : old.rank < W.wind.state.rank) : (windChanged W old F).notices[(1 : Fin 15)] =
      cutBacks .wind (reachedBy F (fun _ w => windChanges W F w)) F.notices[(1 : Fin 15)] := by
  obtain ⟨-, -, -, -, hn⟩ := windChanged_risen (F := F) hr
  exact Eq.trans (hn 1 (by decide)) (risen_cutBacks hF hk)

/-- A change of the wind state acts as R140 to R143 say. -/
theorem windChanged_acts (W : World) (old : WindState) (F : Fleet) : WindActs W old F (windChanged W old F) where
  same := windChanged_same
  turns hr := by
    obtain ⟨hc, hs, ho, hh, hn⟩ := windChanged_risen (F := F) hr
    exact ⟨(risen W old F).1, cutCars_inTurn (fun c P => windOn_windTurn W c P) _ _, hc, hs, ho, hh, hn⟩
  fall := windChanged_fall
  rise := windChanged_wind
  closeCall := windChanged_closeCall_count W old F
  sheltered hF _ _ hw hx := windChanged_sheltered hF hw hx
  current hF hk hr i w hw hs := by
    rw [windChanged_slot hF hk hr hw fun _ e => absurd e hs, windSlot_current hs]
    rfl
  suspended hF hk hr _ _ hw hs := windChanged_suspended hF hk hr hw hs
  carriages hF hk c := windChanged_car hF hk c
  notices hF hk hr := by
    refine ⟨windChanged_cutBacks hF hk hr, fun h1 h2 => ?_⟩
    rw [windChanged_closeCall hr ⟨h1, h2⟩, risen_reached hF hk]
    rfl

end WindChange

/-! ## The commands that change the wind record (R135, R138, R139) -/

section WindCommands

variable {s : State}

/-- The timeout is due by the tick of the last report. -/
theorem windTimeoutDue_iff (W : World) : windTimeoutDue W = true ↔ W.wind.stormLine = false ∧ W.wind.state ≠ .unknown ∧
    ∃ t, W.wind.lastTick = some t ∧ (W.wind.timeout : Int) ≤ sinceTick W.now t := by
  unfold windTimeoutDue
  cases W.wind.lastTick with
  | none => simp
  | some t => simp [and_assoc]

theorem execStormAsserted_eq (hr : s.resetLine = false) :
    exec .stormAsserted s = .next (s.onRecords (fun r => r.withWind r.world.wind.storming)) := by
  show execStormAsserted s = _
  simp only [execStormAsserted, hr, Bool.false_eq_true, if_false]

theorem execStormReleased_eq (hr : s.resetLine = false) (hl : s.records.world.wind.stormLine = true) :
    exec .stormReleased s = .next (s.onRecords
      (fun r => takeWindTimeout (r.setWind (fun w => { w with stormLine := false })))) := by
  show execStormReleased s = _
  simp only [execStormReleased, hr, hl, Bool.not_true, Bool.false_eq_true, if_false]

theorem execWindTimeout_eq (hr : s.resetLine = false) : exec .windTimeout s = .next (s.onRecords takeWindTimeout) := by
  show execWindTimeout s = _
  simp only [execWindTimeout, hr, Bool.false_eq_true, if_false]

theorem takeWindTimeout_due {r : Records} (h : windTimeoutDue r.world = true) :
    takeWindTimeout r = r.withWind { r.world.wind with state := .unknown } := if_pos h

theorem takeWindTimeout_early {r : Records} (h : ¬windTimeoutDue r.world = true) : takeWindTimeout r = r := if_neg h

end WindCommands

end Sys2Proof.Machine

open Sys2Proof.Machine in
/-- Settles O52: within a carriage's turn a warrant that has not had its step stands as the turn found it. -/
theorem windStateChangesAct : Obligations.WindStateChangesAct := by
  refine ⟨?_, fun s hr => ?_⟩
  · intro p f rest s q h hx W wind G
    exact ⟨h.answers hx rfl, windChanged_acts _ _ _⟩
  · intro W changed due
    refine ⟨⟨windChanged_acts _ _ _, execStormAsserted_eq hr⟩, fun hl hno => ⟨windChanged_acts _ _ _, ?_⟩,
      fun hl hdue hne => ⟨windChanged_acts _ _ _, ?_⟩, fun hl hdue hne => ⟨windChanged_acts _ _ _, ?_⟩⟩
    · rw [execStormReleased_eq hr hl, windChanged_same rfl]
      have hearly : ¬windTimeoutDue (s.records.setWind (fun w => { w with stormLine := false })).world =
          true := fun e => by
        obtain ⟨-, hne, hdue⟩ := (windTimeoutDue_iff _).mp e
        exact hno.elim (fun h => h hdue) hne
      simp only [State.onRecords, takeWindTimeout_early hearly]
      rfl
    · rw [execStormReleased_eq hr hl]
      have hnow : windTimeoutDue (s.records.setWind (fun w => { w with stormLine := false })).world = true :=
        (windTimeoutDue_iff _).mpr ⟨rfl, hne, hdue⟩
      simp only [State.onRecords, takeWindTimeout_due hnow]
      rfl
    · rw [execWindTimeout_eq hr]
      simp only [State.onRecords, takeWindTimeout_due ((windTimeoutDue_iff _).mpr ⟨hl, hne, hdue⟩)]
      rfl
end

section
namespace Sys2Proof.Machine

/-! ## A cut in a run-out on a list out of order (R67, R158)

`TripActs` has the current warrant's entry written first and that of the top of the stack after it. A further trip that a
cut raises on a moving carriage marks the current warrant once more at its end, so that its entry is placed anew behind
the other one. On a list in order both places are one; the book alone (R66) does not say that the list is in order. -/

/-- A locked map with one PLAIN bay of 1,000 mm on run 0. -/
def oneBayWorld : World :=
  { World.initial with map :=
    { runs := (Vector.replicate 8 Run.initial).set 0
        { defined := true, closeDir := .down, exposed := false, clearance := 0,
          bays := [{ shape := .plain 1000, ceiling := 400, inService := false, entryCheck := false, condition := none,
                     access := { auto := .full, operator := .full, maintenance := .full, emergency := .full },
                     zone := none, traversed := false, stoppedIn := false }] }
      zones := Vector.replicate 32 Zone.initial, locked := true } }

/-- A warrant of carriage 0 UP over the bay. -/
def bayWarrant (st : WarrantState) : Warrant :=
  { carriage := 0, origin := .assured, cls := .auto, dir := .up, target := 999, limit := 999, rear := 0,
    confirm := none, ceiling := 400, state := st, expiry := none, lifetime := 2000, retireOnStop := none, warned := false }

/-- The entry of the warrant of slot `i` over the bay. -/
def bayEntry (i : SlotId) : Entry := { carriage := 0, handle := ⟨i, 1⟩, firstUnit := 0, lastUnit := 0 }

/-- Carriage 0, TRIPPED and moving in a run-out: the warrants of slots 0 and 2 on its stack, that of slot 1 current.
Each has its entry, but the list is out of order. -/
def strayFleet : Fleet :=
  { Fleet.initial with
    cars := Fleet.initial.cars.set 0
      { Carriage.initial with
        state := .tripped, last := some { positions := [500], speed := 60, tick := 0 }
        pose := some { reference := 500, skew := 0, lower := 400, upper := 600 }, front := some 600
        trip := some { kind := .reverse, tick := 0, further := 0 }
        holds := { HoldSet.empty with trip := true, reversal := true }
        current := some ⟨1, 1⟩, stack := [⟨0, 1⟩, ⟨2, 1⟩] }
    slots := ((Fleet.initial.slots.set 0 { generation := 1, warrant := some (bayWarrant .suspended) }).set 1
      { generation := 1, warrant := some (bayWarrant .active) }).set 2
      { generation := 1, warrant := some (bayWarrant .suspended) }
    occupancy := Fleet.initial.occupancy.set 0 [bayEntry 1, bayEntry 2, bayEntry 0] }

/-- The warrants are in the book's order (R66): only R67's order of the list is not kept. -/
theorem strayFleet_book : strayFleet.Book := by
  have hcars : ∀ c : CarId, c ≠ 0 → strayFleet.cars[c] = Carriage.initial := by decide +kernel
  have hslots : ∀ (i : SlotId) (w : Warrant), (strayFleet.slots[i]).warrant = some w →
      (i = 0 ∨ i = 2) ∧ w = bayWarrant .suspended ∨ i = 1 ∧ w = bayWarrant .active := by
    have hall : ∀ i : SlotId, ∀ w ∈ (strayFleet.slots[i]).warrant,
        (i = 0 ∨ i = 2) ∧ w = bayWarrant .suspended ∨ i = 1 ∧ w = bayWarrant .active := by decide +kernel
    exact hall
  refine ⟨fun c h hc => ?_, fun c h hc => ?_, fun i w hw => ?_, by decide +kernel⟩
  · by_cases e : c = 0
    · subst e
      obtain rfl : ⟨1, 1⟩ = h := Option.some.inj hc
      exact ⟨bayWarrant .active, by decide +kernel⟩
    · rw [hcars c e] at hc
      cases hc
  · by_cases e : c = 0
    · subst e
      have hm : h = ⟨0, 1⟩ ∨ h = ⟨2, 1⟩ := by simpa [strayFleet] using hc
      rcases hm with rfl | rfl
      · exact ⟨bayWarrant .suspended, by decide +kernel⟩
      · exact ⟨bayWarrant .suspended, by decide +kernel⟩
    · rw [hcars c e] at hc
      cases hc
  · rcases hslots i w hw with ⟨rfl | rfl, rfl⟩ | ⟨rfl, rfl⟩
    · decide +kernel
    · decide +kernel
    · decide +kernel

/-- The cut of the bay makes a further trip, which marks the current warrant (slot 1) before the top and again after it. -/
theorem cut_of_strayFleet :
    (((cutUnitStep oneBayWorld (serviceDemand 0 0) strayFleet ⟨1, 1⟩).1.occupancy[(0 : RunId)]).map
      (fun e => e.handle.slot)) = [0, 1, 2] := by decide +kernel

/-- The list that `TripActs` names: the current warrant's entry placed once, then that of the top. -/
theorem relisted_of_strayFleet :
    (relisted oneBayWorld strayFleet (strayFleet.runOutTop 0)
      (fun w => some (cutLimit oneBayWorld (strayFleet.beforeTop 0 60) w))
      (relisted oneBayWorld strayFleet (strayFleet.currentOf 0) (fun w => some (cutLimit oneBayWorld strayFleet w))
        strayFleet.occupancy[(0 : RunId)])).map (fun e => e.handle.slot) = [1, 0, 2] := by decide +kernel

/-- What the cut leaves is not what a trip of the moving carriage leaves. -/
theorem not_tripActs_of_strayFleet {kind : TripKind} {G : Fleet}
    (hG : cutUnitStep oneBayWorld (serviceDemand 0 0) strayFleet ⟨1, 1⟩ = (G, false)) :
    ¬TripActs oneBayWorld strayFleet 0 kind 60 false G := by
  intro h
  have hlist : G.occupancy[(0 : RunId)] = relisted oneBayWorld strayFleet (strayFleet.runOutTop 0)
      (fun w => some (cutLimit oneBayWorld (strayFleet.beforeTop 0 60) w))
      (relisted oneBayWorld strayFleet (strayFleet.currentOf 0) (fun w => some (cutLimit oneBayWorld strayFleet w))
        strayFleet.occupancy[(0 : RunId)]) := h.list
  have hcut := cut_of_strayFleet
  rw [hG, hlist, relisted_of_strayFleet] at hcut
  exact absurd hcut (by decide)

end Sys2Proof.Machine

open Sys2Proof.Machine in
/-- Refutes O54, its last clause: `F.Book` does not put the occupancy list in the order of R67, and a cut that trips a
carriage again in a run-out places the current warrant's entry a second time. -/
theorem not_conditionChangesAct : ¬ Obligations.ConditionChangesAct := by
  intro hob
  obtain ⟨-, -, -, -, hstep⟩ := hob
  obtain ⟨-, hlive⟩ := hstep oneBayWorld strayFleet (serviceDemand 0 0) ⟨1, 1⟩
  obtain ⟨-, haffected, -⟩ := hlive (bayWarrant .active) strayFleet_book (by decide +kernel)
  obtain ⟨htrip, -⟩ := haffected (.inl (by decide)) { num := 0, bay := 0, first := 0, stop := 1000 } (by decide +kernel)
  obtain ⟨G, hG, hacts⟩ := htrip (by decide +kernel)
  exact not_tripActs_of_strayFleet hG hacts
end

section
namespace Sys2Proof.Machine

/-! ## A resumption attempt, entry by entry (R124 to R128) -/

section AttemptSteps

variable {W : World} {F : Fleet} {c : CarId} {h : Handle} {hs below : List Handle} {w : Warrant}

/-- R124. -/
theorem mayAttempt_iff (F : Fleet) (c : CarId) : mayAttempt F c = true ↔ (F.cars[c]).current = none ∧
    (F.cars[c]).stack ≠ [] ∧ (F.cars[c]).state ≠ .tripped ∧ ∀ x, (F.cars[c]).holds.has x = false := by
  simp [mayAttempt, HoldSet.isEmpty_iff, and_assoc]

theorem attempt_of_not_may (h : ¬mayAttempt F c = true) : attempt W F c = F := if_neg h

theorem attempt_of_may (h : mayAttempt F c = true) :
    attempt W F c = attemptFrom W c (F.cars[c]).stack.reverse F := if_pos h

/-- A marked entry retires with its reason. -/
theorem attemptFrom_marked {r : Reason} (hw : F.live h = some w) (hm : w.retireOnStop = some r) :
    attemptFrom W c (h :: hs) F = attemptFrom W c hs (retireQuietly W F h.slot r) := by
  rw [attemptFrom]
  simp only [hw, hm]

/-- An entry whose limit the leading end has reached retires OVERTAKEN (R125). -/
theorem attemptFrom_overtaken (hw : F.live h = some w) (hm : w.retireOnStop = none)
    (ho : beyond w.dir w.limit ((F.cars[w.carriage]).lead w.dir) = false) :
    attemptFrom W c (h :: hs) F =
      attemptFrom W c hs (raiseResumeFail (retireQuietly W F h.slot .overtaken) c h .overtaken none) := by
  rw [attemptFrom]
  simp only [hw, hm, overtaken, ho, Bool.not_false, if_true]

/-- An entry whose walk gains no track retires RESUME_FAIL (R128). -/
theorem attemptFrom_failed (hw : F.live h = some w) (hm : w.retireOnStop = none)
    (ho : beyond w.dir w.limit ((F.cars[w.carriage]).lead w.dir) = true)
    (hg : (walk W F (resumePlan W F h.slot w)).gains (resumePlan W F h.slot w) = false) :
    attemptFrom W c (h :: hs) F = attemptFrom W c hs (raiseResumeFail (retireQuietly W F h.slot .resumeFail) c h
      .resumeFail (walk W F (resumePlan W F h.slot w)).blocker) := by
  rw [attemptFrom]
  simp only [hw, hm, overtaken, ho, hg, Bool.not_true, Bool.false_eq_true, if_false]

/-- An entry whose walk gains track is resumed, and the attempt ends (R127). -/
theorem attemptFrom_resumed (hw : F.live h = some w) (hm : w.retireOnStop = none)
    (ho : beyond w.dir w.limit ((F.cars[w.carriage]).lead w.dir) = true)
    (hg : (walk W F (resumePlan W F h.slot w)).gains (resumePlan W F h.slot w) = true) :
    attemptFrom W c (h :: hs) F = resumeWarrant W F h.slot w (walk W F (resumePlan W F h.slot w)) := by
  rw [attemptFrom]
  simp only [hw, hm, overtaken, ho, hg, Bool.not_true, Bool.false_eq_true, if_false, if_true]

/-- Carriage `c` may attempt a resumption but for its stack, which is `below`. -/
structure AtRest (F : Fleet) (c : CarId) (below : List Handle) : Prop where
  current : (F.cars[c]).current = none
  stack : (F.cars[c]).stack = below
  calm : (F.cars[c]).state ≠ .tripped
  free : ∀ x : Cause, (F.cars[c]).holds.has x = false

/-- The entries left are those of an attempt of their own, and with none left the front is computed anew. -/
theorem AtRest.attemptFrom_eq (hr : AtRest F c below) (W : World) : attemptFrom W c below.reverse F =
    if below = [] then { F with cars := F.cars.set c { F.cars[c] with front := F.frontNow c } } else attempt W F c := by
  split
  · rename_i hb
    rw [hb]
    rfl
  · rename_i hb
    rw [attempt_of_may ((mayAttempt_iff F c).mpr ⟨hr.current, hr.stack ▸ hb, hr.calm, hr.free⟩), hr.stack]

/-- An attempt starts at the top of the stack. -/
theorem AtRest.attempt_top (hr : AtRest F c (below ++ [h])) (W : World) :
    attempt W F c = attemptFrom W c (h :: below.reverse) F := by
  rw [attempt_of_may ((mayAttempt_iff F c).mpr ⟨hr.current, by rw [hr.stack]; simp, hr.calm, hr.free⟩), hr.stack,
    List.reverse_append, List.reverse_singleton, List.singleton_append]

/-- The top taken off leaves what lies beneath it. -/
theorem filter_top (hn : h ∉ below) : (below ++ [h]).filter (fun x => x != h) = below := by
  have hne : ∀ x ∈ below, (x != h) = true := fun x hx => bne_iff_ne.mpr fun e : x = h => hn (e ▸ hx)
  rw [List.filter_append, List.filter_eq_self.mpr hne]
  simp

/-- Within an attempt a retirement is steps 1 to 6 of R88 alone: no KEY_LOST stands. -/
theorem AtRest.retireQuietly_eq (hr : AtRest F w.carriage below) (hw : F.live h = some w) (W : World) (r : Reason) :
    retireQuietly W F h.slot r = unlink W F h.slot w r := by
  have hkey : ((unlink W F h.slot w r).cars[w.carriage]).holds.keyLost = false := by
    rw [(unlink_retired r).car]
    exact hr.free .keyLost
  simp only [retireQuietly, Fleet.slot_of_live hw, losesKey, hkey, Bool.and_false, Bool.false_eq_true, if_false]

/-- The top disposed of leaves the carriage at rest with what lay beneath it. -/
theorem AtRest.disposed {r : Reason} {V : Fleet} (hr : AtRest F w.carriage (below ++ [h])) (hw : F.live h = some w)
    (hn : h ∉ below) (hV : V.cars = (unlink W F h.slot w r).cars) : AtRest V w.carriage below := by
  have hcar : V.cars[w.carriage] = (unlink W F h.slot w r).cars[w.carriage] := by rw [hV]
  rw [(unlink_retired r).car, Fleet.handleOf_slot_of_live hw, hr.stack, filter_top hn, hr.current] at hcar
  refine ⟨?_, ?_, ?_, fun x => ?_⟩ <;> rw [hcar]
  · rfl
  · exact hr.calm
  · exact hr.free x

end AttemptSteps

/-! ## What a resumption leaves (R127) -/

theorem resumeWarrant_slot (W : World) (F : Fleet) (i : SlotId) (w : Warrant) (res : WalkResult) :
    (resumeWarrant W F i w res).slots[i] = { F.slots[i] with warrant := some (resumedWarrant W F w res) } := by
  rw [resumeWarrant_eq, Fleet.raise_slots, refront_slots, resettle_slots, promoted, Fleet.modCar_slots,
    Fleet.putWarrant_get, if_pos rfl]

theorem resumeWarrant_slots (W : World) (F : Fleet) (i : SlotId) (w : Warrant) (res : WalkResult) :
    F.sameSlotsBut (resumeWarrant W F i w res) i := by
  intro j hj
  rw [resumeWarrant_eq, Fleet.raise_slots, refront_slots, resettle_slots, promoted, Fleet.modCar_slots,
    Fleet.putWarrant_get, if_neg hj]

theorem resumeWarrant_car (W : World) (F : Fleet) (i : SlotId) (w : Warrant) (res : WalkResult) :
    (resumeWarrant W F i w res).cars[w.carriage] = { F.cars[w.carriage] with
      current := some (F.handleOf i), stack := (F.cars[w.carriage]).stack.filter (fun x => x != F.handleOf i)
      front := (resumeWarrant W F i w res).frontNow w.carriage } := by
  have hfront : (resumeWarrant W F i w res).frontNow w.carriage =
      (resettle W (promoted W F i w res) i).frontNow w.carriage := by
    rw [resumeWarrant_eq]
    exact frontNow_refront _ _
  rw [hfront, resumeWarrant_eq, Fleet.raise_cars, refront_get, if_pos rfl, resettle_cars, promoted,
    Fleet.modCar_get_self, Fleet.putWarrant_cars]

theorem resumeWarrant_cars (W : World) (F : Fleet) (i : SlotId) (w : Warrant) (res : WalkResult) :
    F.sameCarsBut (resumeWarrant W F i w res) w.carriage := by
  intro d hd
  rw [resumeWarrant_eq, Fleet.raise_cars, refront_get, if_neg hd, resettle_cars, promoted,
    Fleet.modCar_get_other _ _ hd, Fleet.putWarrant_cars]

theorem resumeWarrant_notices (W : World) (F : Fleet) (i : SlotId) (w : Warrant) (res : WalkResult) :
    (resumeWarrant W F i w res).notices = (F.raise { carriage := some w.carriage, handle := some (F.handleOf i)
                                                     value := .resumed res.blocker.isSome res.blocker }).notices := by
  rw [resumeWarrant_eq]
  simp only [Fleet.raise, refront_notices, resettle_notices, promoted, Fleet.modCar_notices, Fleet.putWarrant_notices]

/-- The entry of the resumed warrant is written, and its carriage's holdings are recomputed. -/
theorem resettle_promoted (W : World) (F : Fleet) (i : SlotId) (w : Warrant) (res : WalkResult) :
    resettle W (promoted W F i w res) i =
      rezone W ((promoted W F i w res).putEntry W i (resumedWarrant W F w res)) w.carriage :=
  resettle_of_live (w := resumedWarrant W F w res) (by
    rw [promoted, Fleet.modCar_slots, Fleet.putWarrant_get, if_pos rfl])

theorem promoted_cfg (W : World) (F : Fleet) (i : SlotId) (w : Warrant) (res : WalkResult) :
    ((promoted W F i w res).cars[w.carriage]).cfg = (F.cars[w.carriage]).cfg := by
  rw [promoted, Fleet.modCar_get_self, Fleet.putWarrant_cars]

theorem resumeWarrant_list (W : World) (F : Fleet) (i : SlotId) (w : Warrant) (res : WalkResult) (q : RunId) :
    (resumeWarrant W F i w res).occupancy[q] =
      if q = (F.cars[w.carriage]).cfg.run then
        insertEntry (entryOf (runOf W F w.carriage) (F.handleOf i) (resumedWarrant W F w res))
          ((F.occupancy[(F.cars[w.carriage]).cfg.run]).filter (fun e => e.handle.slot != i))
      else F.occupancy[q] := by
  have hcar : (resumedWarrant W F w res).carriage = w.carriage := rfl
  have hrun : runOf W (promoted W F i w res) w.carriage = runOf W F w.carriage := by simp only [runOf, promoted_cfg]
  have hh : (promoted W F i w res).handleOf i = F.handleOf i := F.putWarrant_handleOf i i _
  have ho : (promoted W F i w res).occupancy = F.occupancy := rfl
  rw [resumeWarrant_eq, Fleet.raise_occupancy, refront_occupancy, resettle_promoted, rezone_occupancy,
    Fleet.putEntry_get]
  simp only [hcar, promoted_cfg, hrun, hh, ho]

theorem resumeWarrant_rezoned (W : World) (F : Fleet) (i : SlotId) (w : Warrant) (res : WalkResult) :
    Rezoned W F (resumeWarrant W F i w res) w.carriage := by
  have hcar := resumeWarrant_car W F i w res
  have hprom : ((promoted W F i w res).cars[w.carriage]).pose = (F.cars[w.carriage]).pose := by
    rw [promoted, Fleet.modCar_get_self, Fleet.putWarrant_cars]
  refine Rezoned.of_rezone (P := (promoted W F i w res).putEntry W i (resumedWarrant W F w res)) ?_ ?_
    (reachedZones_congr ?_ ?_ ?_)
  · rw [Fleet.putEntry_holders]; rfl
  · rw [resumeWarrant_eq, resettle_promoted]; rfl
  · rw [hcar, Fleet.putEntry_cars, promoted_cfg]
  · rw [hcar, Fleet.putEntry_cars, hprom]
  · rw [resumeWarrant_eq, Fleet.raise_occupancy, refront_occupancy, resettle_promoted, rezone_occupancy]

/-- The top disposed of: it retires, and the attempt goes on beneath it (R125, R128). -/
theorem AtRest.dispose {W : World} {F : Fleet} {below : List Handle} {h : Handle} {w : Warrant} {r : Reason}
    (hr : AtRest F w.carriage (below ++ [h])) (hw : F.live h = some w) (hn : h ∉ below) (notice : List NoticeValue)
    (ha : attempt W F w.carriage = attemptFrom W w.carriage below.reverse
      (notice.foldl (fun X v => X.raise { carriage := some w.carriage, handle := some h, value := v })
        (retireQuietly W F h.slot r))) :
    ∃ U, Retired W F h.slot w r U ∧
      let V := notice.foldl (fun X v => X.raise { carriage := some w.carriage, handle := some h, value := v }) U
      attempt W F w.carriage =
        if below = [] then
          { V with cars := V.cars.set w.carriage { V.cars[w.carriage] with front := V.frontNow w.carriage } }
        else attempt W V w.carriage := by
  refine ⟨unlink W F h.slot w r, unlink_retired r, ?_⟩
  intro V
  have hV : V.cars = (unlink W F h.slot w r).cars :=
    List.foldlRecOn notice _ (motive := fun X : Fleet => X.cars = (unlink W F h.slot w r).cars) rfl fun _ hX _ _ => hX
  rw [ha, hr.retireQuietly_eq hw]
  exact (hr.disposed hw hn hV).attemptFrom_eq W

end Sys2Proof.Machine

open Sys2Proof.Machine in
/-- Settles O48: the top entry meets one of the four ends of R125 to R128, and each end's effect is read off the
operation it calls. -/
theorem resumptionTakesTop : Obligations.ResumptionTakesTop := by
  refine ⟨fun W F c hno => attempt_of_not_may fun hm => ?_, ?_⟩
  · obtain ⟨hcur, hstk, hcalm, hfree⟩ := (mayAttempt_iff F c).mp hm
    rcases hno with h | h | h | ⟨x, h⟩
    · exact h hcur
    · exact hstk h
    · exact hcalm h
    · rw [hfree x] at h; cases h
  · intro W F c below h w car hcur hstk hn hcalm hfree hw hc
    subst hc
    have hr : AtRest F w.carriage (below ++ [h]) := ⟨hcur, hstk, hcalm, hfree⟩
    have htop := hr.attempt_top W
    refine ⟨fun reason hm => hr.dispose hw hn [] (htop.trans (attemptFrom_marked hw hm)),
      fun hm ho => hr.dispose hw hn [_] (htop.trans (attemptFrom_overtaken hw hm ho)),
      fun hm ho hg => hr.dispose hw hn [_] (htop.trans (attemptFrom_failed hw hm ho hg)), fun hm ho hg => ?_⟩
    have hh := Fleet.handleOf_slot_of_live hw
    have he := htop.trans (attemptFrom_resumed hw hm ho hg)
    have hcar := resumeWarrant_car W F h.slot w (walk W F (resumePlan W F h.slot w))
    rw [hh, hstk, filter_top hn] at hcar
    have hlist := resumeWarrant_list W F h.slot w (walk W F (resumePlan W F h.slot w))
    have hnot := resumeWarrant_notices W F h.slot w (walk W F (resumePlan W F h.slot w))
    rw [hh] at hlist hnot
    intro w'
    rw [he]
    exact ⟨resumeWarrant_slot W F h.slot w _, resumeWarrant_slots W F h.slot w _, hcar,
      resumeWarrant_cars W F h.slot w _, (hlist _).trans (if_pos rfl), fun q hq => (hlist q).trans (if_neg hq),
      resumeWarrant_rezoned W F h.slot w _, hnot⟩
end

section
namespace Sys2Proof.Machine

/-! ## What every operation upholds of carriage records and notice counts (R116, R155 to R157, R164) -/

/-- R155, R156 of one record: it holds a trip exactly while TRIPPED, and then the cause TRIP. -/
def Carriage.TripLawful (k : Carriage) : Prop :=
  (k.state = .tripped ↔ k.trip.isSome = true) ∧ (k.state = .tripped → k.holds.trip = true)

/-- R157 of one record. -/
def Carriage.CountLawful (k : Carriage) : Prop := k.level ≤ 2 ∧ k.tripCount < k.cfg.threshold

/-- Each law of a carriage's record that `k` meets, `k'` meets. -/
structure Carriage.Upheld (k k' : Carriage) : Prop where
  trip : k.TripLawful → k'.TripLawful
  count : k.CountLawful → k'.CountLawful
  stack : k.stack.length ≤ 3 → k'.stack.length ≤ 3

/-- Each law of a carriage's record or a notice's count that stands in `F` stands in `G`. -/
structure Upheld (F G : Fleet) : Prop where
  cars : ∀ c : CarId, (F.cars[c]).Upheld G.cars[c]
  notices : ∀ n : Fin 15, (F.notices[n]).count ≤ 255 → (G.notices[n]).count ≤ 255

section CarUpheld

variable {k : Carriage}

theorem Carriage.Upheld.refl (k : Carriage) : k.Upheld k := ⟨id, id, id⟩

/-- A handle taken off the stack. -/
theorem Carriage.Upheld.offStack (k : Carriage) (p : Handle → Bool) : k.Upheld { k with stack := k.stack.filter p } :=
  ⟨id, id, (List.length_filter_le _ _).trans⟩

/-- A hold set that does not lose TRIP. -/
theorem Carriage.Upheld.holding {h : HoldSet} (ht : k.holds.has .trip = true → h.has .trip = true) :
    k.Upheld { k with holds := h } :=
  ⟨fun hk => ⟨hk.1, fun hs => ht (hk.2 hs)⟩, id, id⟩

theorem Carriage.Upheld.addHold (k : Carriage) (x : Cause) : k.Upheld { k with holds := k.holds.add x } :=
  .holding fun h => by rw [HoldSet.has_add, h, Bool.or_true]

/-- TRIP leaves the hold set of a carriage only when it is not TRIPPED. -/
theorem Carriage.Upheld.removeHold {x : Cause} (hx : x = .trip → k.state ≠ .tripped) :
    k.Upheld { k with holds := k.holds.remove x } := by
  by_cases e : x = .trip
  · exact ⟨fun hk => ⟨hk.1, fun hs => absurd hs (hx e)⟩, id, id⟩
  · exact .holding fun h => by rw [HoldSet.has_remove, h, decide_eq_true (Ne.symm e), Bool.and_true]

/-- A trip recorded (R156). -/
theorem Carriage.Upheld.tripped (k : Carriage) (t : TripRecord) :
    k.Upheld { k with state := .tripped, trip := some t, holds := k.holds.add .trip } :=
  ⟨fun _ => ⟨iff_of_true rfl rfl, fun _ => rfl⟩, id, id⟩

/-- A further trip counted (R158). -/
theorem Carriage.Upheld.tripAgain (k : Carriage) (f : TripRecord → TripRecord) :
    k.Upheld { k with trip := k.trip.map f } :=
  ⟨fun hk => ⟨hk.1.trans (by rw [Option.isSome_map]), hk.2⟩, id, id⟩

/-- A trip counted stays below the threshold, and a level at 2 does not rise (R157). -/
theorem Carriage.Upheld.counted (k : Carriage) : k.Upheld (countedCar k) := by
  refine ⟨id, fun hk => ?_, id⟩
  obtain ⟨hl, hc⟩ := hk
  constructor <;> simp only [countedCar] <;> split <;> omega

/-- A count begun again at 0 (R98, R161). -/
theorem Carriage.Upheld.recount {n : Nat} (hn : n ≤ k.level) : k.Upheld { k with level := n, tripCount := 0 } :=
  ⟨id, fun hk => ⟨hn.trans hk.1, (Nat.zero_le _).trans_lt hk.2⟩, id⟩

/-- The state by the speed of a report is TRIPPED exactly when it was (R35). -/
theorem stateBySpeed_tripped (st : CarState) (v : Nat) : stateBySpeed st v = .tripped ↔ st = .tripped := by
  cases st <;> simp only [stateBySpeed] <;> split <;> simp

theorem Carriage.Upheld.reported (W : World) (F : Fleet) (c : CarId) (positions : List Nat) (speed : Int) :
    (F.cars[c]).Upheld (recordedCar W F c positions speed) :=
  have hs := stateBySpeed_tripped (F.cars[c]).state speed.natAbs
  ⟨fun hk => ⟨hs.trans hk.1, fun h => hk.2 (hs.mp h)⟩, id, id⟩

/-- A configuration written (R27): the record is that of a carriage that is not TRIPPED and has no warrant. -/
theorem Carriage.Upheld.configured (k : Carriage) {cfg : CarConfig} (h : 0 < cfg.threshold) :
    k.Upheld (configure cfg k) where
  trip _ := ⟨by simp [configure], nofun⟩
  count hk := by
    refine ⟨?_, h⟩
    simp only [configure]
    split
    · exact hk.1
    · exact Nat.zero_le 2
  stack _ := Nat.zero_le 3

theorem Carriage.Upheld.initial (k : Carriage) : k.Upheld Carriage.initial :=
  ⟨fun _ => ⟨by simp [Carriage.initial], nofun⟩, fun _ => ⟨by decide, by decide⟩, fun _ => by decide⟩

/-- A trip cleared, but for its cause (R160). -/
theorem Carriage.Upheld.cleared (k : Carriage) : k.Upheld { k with state := .standing, trip := none } :=
  ⟨fun _ => ⟨by simp, nofun⟩, id, id⟩

end CarUpheld

section Basic

variable {F G H : Fleet}

theorem Upheld.refl (F : Fleet) : Upheld F F := ⟨fun _ => .refl _, fun _ => id⟩

theorem Upheld.trans (h : Upheld F G) (h' : Upheld G H) : Upheld F H where
  cars c := ⟨(h'.cars c).trip ∘ (h.cars c).trip, (h'.cars c).count ∘ (h.cars c).count,
    (h'.cars c).stack ∘ (h.cars c).stack⟩
  notices n := h'.notices n ∘ h.notices n

theorem Upheld.of_eq (hc : G.cars = F.cars) (hn : G.notices = F.notices) : Upheld F G :=
  ⟨fun c => by rw [hc]; exact .refl _, fun n => by rw [hn]; exact id⟩

theorem Upheld.of_cars (hn : G.notices = F.notices) (hc : ∀ c : CarId, (F.cars[c]).Upheld G.cars[c]) : Upheld F G :=
  ⟨hc, fun n => by rw [hn]; exact id⟩

theorem Upheld.raise (F : Fleet) (d : Detail) : Upheld F (F.raise d) := by
  refine ⟨fun c => .refl _, fun n h => ?_⟩
  rw [Fleet.raise_get]
  split
  · exact Notice.occur_count_le _ d
  · exact h

theorem Upheld.modCar (F : Fleet) (c : CarId) {f : Carriage → Carriage} (hf : (F.cars[c]).Upheld (f F.cars[c])) :
    Upheld F (F.modCar c f) :=
  .of_cars rfl (F.modCar_rel Carriage.Upheld.refl c f hf)

theorem Upheld.refront (F : Fleet) (c : CarId) : Upheld F (refront F c) := .modCar F c ⟨id, id, id⟩

theorem Upheld.addHold (F : Fleet) (c : CarId) (x : Cause) : Upheld F (F.addHold c x) := .modCar F c (.addHold _ x)

theorem Upheld.removeHold {c : CarId} {x : Cause} (hx : x = .trip → (F.cars[c]).state ≠ .tripped) :
    Upheld F (F.removeHold c x) := .modCar F c (.removeHold hx)

theorem Upheld.addHoldAll (F : Fleet) (x : Cause) : Upheld F (F.addHoldAll x) := by
  refine .of_cars (F.addHoldAll_notices x) fun c => ?_
  rw [Fleet.addHoldAll_get]
  split
  · exact .addHold _ x
  · exact .refl _

theorem Upheld.countTrip (F : Fleet) (c : CarId) : Upheld F (countTrip F c) := by
  have hc := Upheld.modCar F c (.counted _)
  rw [countTrip_eq]
  split
  · exact hc.trans (.raise _ _)
  · exact hc

theorem Upheld.raiseCuts (F : Fleet) (source : CutSource) (reached : List Reached) :
    Upheld F (raiseCuts F source reached) := by
  unfold Machine.raiseCuts
  induction reached generalizing F with
  | nil => exact .refl F
  | cons x xs ih => exact (Upheld.raise F _).trans (ih _)

theorem Upheld.modWarrant (F : Fleet) (i : SlotId) (f : Warrant → Warrant) : Upheld F (F.modWarrant i f) :=
  .of_eq rfl rfl

theorem Upheld.rezone (W : World) (F : Fleet) (c : CarId) : Upheld F (rezone W F c) := .of_eq (by simp) (by simp)

theorem Upheld.resettle (W : World) (F : Fleet) (i : SlotId) : Upheld F (resettle W F i) := .of_eq (by simp) (by simp)

theorem Upheld.receiling (W : World) (F : Fleet) (i : SlotId) : Upheld F (receiling W F i) :=
  .of_eq (by simp) (by simp)

theorem Upheld.shorten (W : World) (F : Fleet) (i : SlotId) (x : Int) : Upheld F (shorten W F i x) :=
  .of_eq (by simp) (by simp)

theorem Upheld.markWarrant (W : World) (F : Fleet) (i : SlotId) (r : Reason) : Upheld F (markWarrant W F i r) :=
  .of_eq (by simp) (by simp)

end Basic

/-! ### Retirements and resumptions -/

section Table

variable {F : Fleet} {c : CarId} {x : Cause}

theorem Upheld.unlink (W : World) (F : Fleet) (i : SlotId) (w : Warrant) (r : Reason) :
    Upheld F (unlink W F i w r) := by
  refine .of_cars (unlink_notices W F i w r) fun c => ?_
  by_cases hc : c = w.carriage
  · subst hc
    rw [(unlink_retired r).car]
    exact ⟨id, id, (List.length_filter_le _ _).trans⟩
  · rw [unlink_other W F i w r hc]
    exact .refl _

theorem Upheld.retireQuietly (W : World) (F : Fleet) (i : SlotId) (r : Reason) :
    Upheld F (retireQuietly W F i r) := by
  unfold Machine.retireQuietly
  split
  · rename_i w _
    have hu := Upheld.unlink W F i w r
    simp only []
    split
    · exact hu.trans (.removeHold nofun)
    · exact hu
  · exact .refl F

theorem Upheld.resumeWarrant (W : World) (F : Fleet) (i : SlotId) (w : Warrant) (res : WalkResult) :
    Upheld F (resumeWarrant W F i w res) := by
  have hput : Upheld F (F.putWarrant i (some (resumedWarrant W F w res))) := .of_eq rfl rfl
  have hpromoted : Upheld F (promoted W F i w res) :=
    hput.trans (.modCar _ w.carriage ⟨id, id, (List.length_filter_le _ _).trans⟩)
  rw [resumeWarrant_eq]
  exact ((hpromoted.trans (.resettle W _ i)).trans (.refront _ _)).trans (.raise _ _)

theorem Upheld.attemptFrom (W : World) (c : CarId) (hs : List Handle) (F : Fleet) :
    Upheld F (attemptFrom W c hs F) := by
  induction hs generalizing F with
  | nil => exact .refront F c
  | cons x hs ih =>
    have retired : ∀ r, Upheld F (Machine.retireQuietly W F x.slot r) := .retireQuietly W F x.slot
    unfold Machine.attemptFrom
    split
    · exact (Upheld.modCar F c (.offStack _ _)).trans (ih _)
    · split
      · exact (retired _).trans (ih _)
      · split
        · exact ((retired _).trans (.raise _ _)).trans (ih _)
        · simp only []
          split
          · exact .resumeWarrant W F _ _ _
          · exact ((retired _).trans (.raise _ _)).trans (ih _)

theorem Upheld.attempt (W : World) (F : Fleet) (c : CarId) : Upheld F (attempt W F c) := by
  unfold Machine.attempt
  split
  · exact .attemptFrom W c _ F
  · exact .refl F

theorem Upheld.releaseHold (W : World) (hx : x = .trip → (F.cars[c]).state ≠ .tripped) :
    Upheld F (releaseHold W F c x) := by
  have hr := Upheld.removeHold hx
  unfold Machine.releaseHold
  simp only []
  split
  · exact hr.trans (.attempt W _ c)
  · exact hr

theorem Upheld.retire (W : World) (F : Fleet) (i : SlotId) (r : Reason) : Upheld F (retire W F i r) := by
  unfold Machine.retire
  split
  · rename_i w _
    have hu := Upheld.unlink W F i w r
    have ha := hu.trans (.attempt W _ w.carriage)
    simp only []
    split <;> split
    · exact ha.trans (.releaseHold W nofun)
    · exact ha
    · exact hu.trans (.releaseHold W nofun)
    · exact hu
  · exact .refl F

end Table

/-! ### Trips and the stages of a report -/

section Report

variable {F : Fleet}

theorem Upheld.markTop (W : World) (F : Fleet) (c : CarId) (r : Reason) : Upheld F (markTop W F c r) := by
  unfold Machine.markTop
  split
  · split
    · exact .markWarrant W F _ r
    · exact .refl F
  · exact .refl F

theorem Upheld.stopCurrent (W : World) (F : Fleet) (c : CarId) (v : Nat) : Upheld F (stopCurrent W F c v) := by
  unfold Machine.stopCurrent
  split
  · split
    · exact .retire W F _ _
    · exact .markWarrant W F _ _
  · exact .refl F

theorem Upheld.firstTrip (W : World) (F : Fleet) (c : CarId) (kind : TripKind) (v : Nat) :
    Upheld F (firstTrip W F c kind v) :=
  ((((Upheld.modCar F c (.tripped _ _)).trans (.stopCurrent W _ c v)).trans (.markTop W _ c .tripped)).trans
    (.countTrip _ c)).trans (.raise _ _)

theorem Upheld.furtherTrip (W : World) (F : Fleet) (c : CarId) (v : Nat) (byCut : Bool) :
    Upheld F (furtherTrip W F c v byCut) := by
  have h1 := Upheld.modCar F c (f := fun k => { k with
    trip := k.trip.map (fun t => { t with further := min 255 (t.further + 1) }) }) (.tripAgain _ _)
  have h2 := fun i => h1.trans (.markWarrant W _ i .tripped)
  unfold Machine.furtherTrip
  simp only []
  split <;> split
  · exact ((h2 _).trans (.markTop W _ c _)).trans (.stopCurrent W _ c v)
  · exact (h1.trans (.markTop W _ c _)).trans (.stopCurrent W _ c v)
  · exact (h2 _).trans (.markTop W _ c _)
  · exact h1.trans (.markTop W _ c _)

theorem Upheld.trip (W : World) (F : Fleet) (c : CarId) (kind : TripKind) (v : Nat) (byCut : Bool) :
    Upheld F (trip W F c kind v byCut) := by
  unfold Machine.trip
  split
  · exact .furtherTrip W F c v byCut
  · exact .firstTrip W F c kind v

theorem Upheld.stopStage (W : World) (F : Fleet) (c : CarId) (v : Nat) : Upheld F (stopStage W F c v) := by
  unfold Machine.stopStage
  split
  · split
    · split
      · exact .retire W F _ _
      · exact .refl F
    · exact .refl F
  · exact .refl F

theorem Upheld.advance (W : World) (F : Fleet) (c : CarId) (i : SlotId) (speed : Int) :
    Upheld F (advance W F c i speed) := by
  have ha : Upheld F (activate F i speed) := .modWarrant F i _
  unfold Machine.advance releaseRear
  split
  · exact .refl F
  · split
    · simp only []
      split
      · exact (ha.trans (.modWarrant _ i _)).trans (.resettle W _ i)
      · exact ha
    · exact ha

theorem Upheld.completeStage (W : World) (F : Fleet) (i : SlotId) (v : Nat) : Upheld F (completeStage W F i v) := by
  unfold Machine.completeStage
  split
  · split
    · exact ((Upheld.modCar F _ (.recount le_rfl)).trans (.raise _ _)).trans (.retire W _ i _)
    · exact .refl F
  · exact .refl F

theorem Upheld.progress (W : World) (F : Fleet) (c : CarId) (speed : Int) : Upheld F (progress W F c speed) := by
  unfold Machine.progress
  split
  · split
    · exact .stopStage W F c _
    · exact (Upheld.advance W F c _ speed).trans (.completeStage W _ _ _)
  · exact .refl F

theorem Upheld.warn (F : Fleet) (c : CarId) : Upheld F (warn F c) := by
  unfold Machine.warn
  split
  · split
    · exact (Upheld.modWarrant F _ _).trans (.raise _ _)
    · exact .refl F
  · exact .refl F

theorem Upheld.supervise (W : World) (F : Fleet) (c : CarId) (speed : Int) : Upheld F (supervise W F c speed) := by
  unfold Machine.supervise
  split
  · exact (Upheld.trip W F c _ _ false).trans (.stopStage W _ c _)
  · exact (Upheld.warn F c).trans (.progress W _ c speed)

theorem Upheld.endRunOut (W : World) (F : Fleet) (c : CarId) (v : Nat) : Upheld F (endRunOut W F c v) := by
  unfold Machine.endRunOut
  split
  · have ended : ∀ G, Upheld F G → Upheld F (Machine.attempt W (Machine.refront
        (match (G.removeHold c .reversal).currentOf c with
         | some (i, _) => Machine.receiling W (G.removeHold c .reversal) i
         | none => G.removeHold c .reversal) c) c) := by
      intro G hG
      have h2 : Upheld F (G.removeHold c .reversal) := hG.trans (.removeHold nofun)
      refine (Upheld.trans ?_ (.refront _ c)).trans (.attempt W _ c)
      split
      · exact h2.trans (.receiling W _ _)
      · exact h2
    refine ended _ ?_
    split
    · split
      · exact .retire W F _ _
      · exact .refl F
    · exact .refl F
  · exact .refl F

theorem Upheld.endMute (W : World) (F : Fleet) (c : CarId) : Upheld F (endMute W F c) := by
  unfold Machine.endMute
  split
  · exact (Upheld.modCar F c ⟨id, id, id⟩).trans (.releaseHold W nofun)
  · exact .refl F

theorem Upheld.recordReport (W : World) (F : Fleet) (c : CarId) (positions : List Nat) (speed : Int) :
    Upheld F (recordReport W F c positions speed) := by
  rw [recordReport_eq]
  exact .modCar F c (f := fun _ => recordedCar W F c positions speed) (.reported W F c positions speed)

theorem Upheld.takeReport (W : World) (F : Fleet) (c : CarId) (positions : List Nat) (speed : Int) :
    Upheld F (takeReport W F c positions speed).2 := by
  have h4 := Upheld.recordReport W F c positions speed
  unfold Machine.takeReport
  simp only []
  refine (Upheld.trans ?_ (.endRunOut _ _ c _)).trans (.endMute _ _ c)
  cases trackCheck W (Machine.recordReport W F c positions speed) c with
  | none => exact (h4.trans (.rezone _ _ c)).trans (.supervise _ _ c speed)
  | some kind => exact ((h4.trans (.trip W _ c kind _ false)).trans (.rezone _ _ c)).trans (.stopStage _ _ c _)

end Report

/-! ### Demands -/

section Demands

theorem Upheld.cutFromLead (W : World) (d : UnitDemand) (F : Fleet) (i : SlotId) (w : Warrant) :
    Upheld F (cutFromLead W d F i w).1 := by
  rcases cutFromLead_cases W d F i w with e | e | ⟨x, e⟩ | e | e <;> rw [e]
  · exact .refl F
  · exact .trip W F _ _ _ _
  · exact .shorten W F i x
  · exact .retire W F i _
  · exact .markWarrant W F i _

theorem Upheld.cutFromRear (W : World) (d : UnitDemand) (F : Fleet) (i : SlotId) (w : Warrant) :
    Upheld F (cutFromRear W d F i w).1 := by
  unfold Machine.cutFromRear
  simp only []
  split
  · exact .refl F
  · split
    · exact .retire W F i _
    · exact .shorten W F i _

/-- What each step of a demand upholds, the demand on handles and carriages in turn upholds. -/
theorem Upheld.cutCars_cutEach {step : Fleet → Handle → Fleet × Bool} {handles : CarId → Fleet → List Handle}
    (hs : ∀ F h, Upheld F (step F h).1) (cs : List CarId) (F : Fleet) :
    Upheld F (cutCars (fun c F => cutEach step c (handles c F) F) cs F).1 :=
  cutCars_keeps (P := Upheld F) (fun c _ hG =>
    cutEach_keeps (P := Upheld F) (fun H h hH => hH.trans (hs H h)) c _ hG) cs (.refl F)

theorem Upheld.cutToUnit (W : World) (d : UnitDemand) (F : Fleet) : Upheld F (cutToUnit W d F) := by
  obtain ⟨reached, e⟩ := cutToUnit_eq W d F
  rw [e]
  refine (Upheld.cutCars_cutEach (fun F h => ?_) _ F).trans (.raiseCuts _ _ _)
  unfold cutUnitStep
  split
  · exact .refl F
  · split
    · exact .cutFromLead W d F _ _
    · exact .cutFromRear W d F _ _

theorem Upheld.cutFrontMarking (W : World) (F : Fleet) (i : SlotId) (w : Warrant) (r : Reason) :
    Upheld F (cutFrontMarking W F i w r) := by
  unfold Machine.cutFrontMarking
  split
  · exact .retire W F i r
  · exact .markWarrant W F i r

theorem Upheld.cutForEstop (W : World) (F : Fleet) : Upheld F (cutForEstop W F).1 := by
  refine Upheld.cutCars_cutEach (fun F h => ?_) _ F
  unfold estopStep
  split
  · exact .cutFrontMarking W F _ _ _
  · exact .refl F

theorem Upheld.windStep (W : World) (entered : WindState) (F : Fleet) (h : Handle) :
    Upheld F (windStep W entered F h).1 := by
  unfold Machine.windStep
  split
  · exact .refl F
  · rename_i w _
    simp only []
    split
    · exact .refl F
    · split
      · split
        · refine Upheld.trans ?_ (.raiseCuts _ _ _)
          split
          · exact .markWarrant W F _ _
          · exact .retire W F _ _
        · exact .refl F
      · split
        · rcases cutFront_cases W .wind F h.slot w with ⟨-, e⟩ | ⟨-, e⟩ <;> rw [e]
          · exact .refl F
          · exact (Upheld.shorten W F _ _).trans (.raise _ _)
        · exact .refl F

theorem Upheld.windChanged (W : World) (old : WindState) (F : Fleet) : Upheld F (windChanged W old F) := by
  have h2 : ∀ d, Upheld F (cutForWind W W.wind.state (F.raise d)).1 := fun d =>
    (Upheld.raise F d).trans (.cutCars_cutEach (Upheld.windStep W _) _ _)
  unfold Machine.windChanged
  simp only []
  split
  · exact .refl F
  · split
    · split
      · exact (h2 _).trans (.raise _ _)
      · exact h2 _
    · exact .raise F _

theorem Upheld.keySuspendedStep (W : World) (F : Fleet) (h : Handle) : Upheld F (keySuspendedStep W F h).1 := by
  unfold Machine.keySuspendedStep
  split
  · exact .refl F
  · split
    · split
      · exact .markWarrant W F _ _
      · exact .retire W F _ _
    · exact .refl F

theorem Upheld.keyCurrentStep (W : World) (F : Fleet) (h : Handle) : Upheld F (keyCurrentStep W F h).1 := by
  unfold Machine.keyCurrentStep
  split
  · exact .refl F
  · split
    · exact (Upheld.addHold F _ _).trans (.cutFrontMarking W _ _ _ _)
    · exact .refl F

theorem Upheld.cutForKey (W : World) (F : Fleet) : Upheld F (cutForKey W F) := by
  obtain ⟨reached, d, e⟩ := cutForKey_eq W F
  rw [e]
  exact (((Upheld.cutCars_cutEach (Upheld.keySuspendedStep W) _ F).trans
    (.cutCars_cutEach (handles := fun c F => (F.cars[c]).current.toList) (Upheld.keyCurrentStep W) _ _)).trans
      (.raiseCuts _ _ _)).trans (.raise _ _)

end Demands

/-! ### Warrant and hold requests -/

section Requests

variable {W : World} {F : Fleet} {c : CarId} {i : SlotId}

theorem Upheld.issue (W : World) (F : Fleet) (i : SlotId) (c : CarId) (o : Origin) (k : Cls) (d : Dir) (target : Int)
    (lifetime : Nat) (res : WalkResult) : Upheld F (issue W F i c o k d target lifetime res) := by
  have hissued : ∀ w, Upheld F (issuedTo F i w) := fun w => by
    let F1 : Fleet := { F with
      slots := F.slots.set i { generation := (F.slots[i]).generation + 1, warrant := some w } }
    let f : Carriage → Carriage := fun car => { car with current := some (F1.handleOf i) }
    have h1 : Upheld F F1 := .of_eq rfl rfl
    exact h1.trans (.modCar F1 w.carriage (f := f) ⟨id, id, id⟩)
  rw [issue_eq]
  exact (hissued _).trans (.resettle W _ i)

/-- A warrant is set aside onto a stack that has room (R116, R119). -/
theorem Upheld.suspend (hroom : (F.cars[c]).stack.length < 3) (i : SlotId) : Upheld F (suspend F c i) := by
  refine (Upheld.modWarrant F i _).trans (.modCar _ c ⟨id, id, fun _ => ?_⟩)
  rw [List.length_append, List.length_singleton]
  exact hroom

/-- An `ask` over a current warrant passes check 9 only with room on the stack (R77). -/
theorem stack_room_of_askRefusal {o : Origin} {k : Cls} (h : askRefusal F o c k = none)
    (hx : (F.currentOf c).isSome = true) : (F.cars[c]).stack.length < 3 := by
  by_contra hfull
  unfold askRefusal at h
  simp only [] at h
  split_ifs at h with _ _ _ _ hhas _ hstack
  exact hstack ⟨by simpa [hx] using hhas, Nat.not_lt.mp hfull⟩

theorem Upheld.grant (hroom : (F.currentOf c).isSome = true → (F.cars[c]).stack.length < 3) (o : Origin) (k : Cls)
    (d : Dir) (target : Int) (lifetime : Nat) (res : WalkResult) :
    Upheld F (grant W F i c o k d target lifetime res) := by
  unfold Machine.grant
  split
  · rename_i j w hx
    have hi := (Upheld.suspend (hroom (by rw [hx]; rfl)) j).trans (.issue W _ i c o k d target lifetime res)
    refine Upheld.trans ?_ (.refront _ c)
    split
    · exact hi.trans (.addHold _ c _)
    · exact hi
  · exact (Upheld.issue W F i c o k d target lifetime res).trans (.refront _ c)

theorem Upheld.extendWarrant (W : World) (F : Fleet) (i : SlotId) (w : Warrant) (target : Nat) :
    Upheld F (extendWarrant W F i w target).1 := by
  unfold Machine.extendWarrant
  simp only []
  split
  · exact .refl F
  · split
    · exact .refl F
    · split
      · exact .refl F
      · split
        · exact (Upheld.modWarrant F i _).trans (.resettle W _ i)
        · exact .refl F

theorem Upheld.trimWarrant (W : World) (F : Fleet) (i : SlotId) (w : Warrant) (new : Int) :
    Upheld F (trimWarrant W F i w new).1 := by
  unfold Machine.trimWarrant
  split
  · exact .refl F
  · simp only []
    split
    · exact .refl F
    · exact .shorten W F i _

theorem Upheld.releaseWarrant (W : World) (F : Fleet) (i : SlotId) (w : Warrant) :
    Upheld F (releaseWarrant W F i w).1 := by
  unfold Machine.releaseWarrant
  split
  · exact .markWarrant W F i _
  · exact .retire W F i _

theorem Upheld.expire (W : World) (F : Fleet) (i : SlotId) : Upheld F (expire W F i) := by
  unfold Machine.expire
  split
  · exact (Upheld.raise F _).trans (.retire W _ i _)
  · exact .refl F

theorem Upheld.becomeMute (F : Fleet) (c : CarId) : Upheld F (becomeMute F c) := by
  unfold Machine.becomeMute
  split
  · exact ((Upheld.modCar F c ⟨id, id, id⟩).trans (.addHold _ c _)).trans (.raise _ _)
  · exact .refl F

theorem Upheld.releaseHoldAll (W : World) (F : Fleet) {x : Cause} (hx : x ≠ .trip) :
    Upheld F (releaseHoldAll W F x) := by
  unfold Machine.releaseHoldAll
  induction List.finRange 16 generalizing F with
  | nil => exact .refl F
  | cons c cs ih =>
    refine Upheld.trans ?_ (ih _)
    beta_reduce
    split
    · exact .releaseHold W fun e => absurd e hx
    · exact .refl F

/-- A `clear` takes the trip record with the state, and TRIP after them (R160). -/
theorem Upheld.clearTrip (W : World) (F : Fleet) (c : CarId) : Upheld F (clearTrip W F c) := by
  refine (Upheld.modCar F c (.cleared _)).trans (.releaseHold W fun _ => ?_)
  rw [Fleet.modCar_get_self]
  exact nofun

theorem Upheld.retireAll (W : World) (F : Fleet) : Upheld F (retireAll W F) := by
  unfold Machine.retireAll
  induction List.finRange 48 generalizing F with
  | nil => exact .refl F
  | cons i is ih => exact (Upheld.retireQuietly W F i _).trans (ih _)

theorem Upheld.restartHolders (W : World) (before : Vector (Option CarId) 32) (F : Fleet) :
    Upheld F (restartHolders W before F) := by
  unfold Machine.restartHolders
  split
  · exact .of_eq rfl rfl
  · exact .of_eq rfl rfl

theorem Upheld.mapCars (F : Fleet) {f : Carriage → Carriage} (hf : ∀ k : Carriage, k.Upheld (f k)) :
    Upheld F { F with cars := F.cars.map f } :=
  .of_cars rfl fun c => by
    simp only [Fin.getElem_fin, Vector.getElem_map]
    exact hf _

theorem Upheld.restartHolds (F : Fleet) : Upheld F (restartHolds F) :=
  (Upheld.addHoldAll F .assuredHold).trans (.mapCars _ fun _ => .removeHold nofun)

/-- Notices rewritten one by one to no greater counts. -/
theorem Upheld.of_notices {F G : Fleet} (hc : G.cars = F.cars)
    (hn : ∀ n : Fin 15, (G.notices[n]).count ≤ (F.notices[n]).count) : Upheld F G :=
  ⟨fun c => by rw [hc]; exact .refl _, fun n => (hn n).trans⟩

theorem Upheld.clearNotices (F : Fleet) : Upheld F (clearNotices F) := by
  refine .of_notices rfl fun n => ?_
  simp only [Machine.clearNotices, Fin.getElem_fin, Vector.getElem_map]
  exact Nat.zero_le _

theorem Upheld.restartFleet (W : World) (F : Fleet) : Upheld F (restartFleet W F) :=
  (((Upheld.retireAll W F).trans (.restartHolders W F.holders _)).trans (.restartHolds _)).trans (.clearNotices _)

theorem Upheld.recomputeCeilings (W : World) (run : RunId) (b : Nat) (F : Fleet) :
    Upheld F (recomputeCeilings W run b F) := by
  unfold Machine.recomputeCeilings
  induction List.finRange 48 generalizing F with
  | nil => exact .refl F
  | cons i is ih =>
    refine Upheld.trans ?_ (ih _)
    beta_reduce
    split
    · split
      · exact .receiling W F i
      · exact .refl F
    · exact .refl F

end Requests

/-! ### Every command -/

/-- Each law of carriage records and notice counts that the records meet, `r'` meets. -/
abbrev Records.Upholds (r r' : Records) : Prop := Upheld r.fleet r'.fleet

section Rules

variable {r : Records} {W : World} {G : Fleet} {m : TrackMap}

theorem Records.Upholds.of_fleet {n : Nat} (h : Upheld r.fleet G) :
    r.Upholds { world := W, fleet := G, unstated := n } := h

theorem Records.Upholds.withMap (r : Records) (m : TrackMap) : r.Upholds (r.withMap m) := .refl _

/-- The map changes, then the fleet. -/
theorem Records.Upholds.of_map {n : Nat} (h : Upheld (r.withMap m).fleet G) :
    r.Upholds { world := W, fleet := G, unstated := n } := h

/-! #### Requests on the map -/

theorem Records.Upholds.setrunRule (o : Origin) (q : SetRunBody) : r.Upholds (setrunRule o q r).1 := by
  refine lockFirst_keeps (Q := r.Upholds) (.refl _) fun _ => ?_
  split
  · split
    · exact .refl _
    · split
      · split <;> exact .refl _
      · exact .refl _
  · exact .refl _

theorem Records.Upholds.setbayRule (o : Origin) (q : SetBayBody) : r.Upholds (setbayRule o q r).1 := by
  refine lockFirst_keeps (Q := r.Upholds) (.refl _) fun _ => ?_
  split
  · split
    · exact .refl _
    · simp only []
      split
      · exact .refl _
      · split <;> exact .refl _
  · exact .refl _

theorem Records.Upholds.truncateRule (o : Origin) (q : SetBayBody) : r.Upholds (truncateRule o q r).1 := by
  refine lockFirst_keeps (Q := r.Upholds) (.refl _) fun _ => ?_
  split
  · split
    · exact .refl _
    · simp only []
      split
      · exact .refl _
      · split <;> exact .refl _
  · exact .refl _

theorem Records.Upholds.setzoneRule (o : Origin) (q : SetZoneBody) : r.Upholds (setzoneRule o q r).1 := by
  refine lockFirst_keeps (Q := r.Upholds) (.refl _) fun _ => ?_
  split <;> exact .refl _

theorem Records.Upholds.serviceRule (o : Origin) (q : TripleBody) : r.Upholds (serviceRule o q r).1 := by
  refine assuredOnly_keeps (Q := r.Upholds) (.refl _) ?_
  split
  · exact .refl _
  · refine withBay_keeps (Q := r.Upholds) (.refl _) fun i b => ?_
    simp only []
    split
    · exact .of_map (.cutToUnit _ _ _)
    · exact .withMap _ _

theorem Records.Upholds.ceilingRule (o : Origin) (q : CeilingBody) : r.Upholds (ceilingRule o q r).1 := by
  refine assuredOnly_keeps (Q := r.Upholds) (.refl _) ?_
  split
  · exact .refl _
  · refine withBay_keeps (Q := r.Upholds) (.refl _) fun i b => ?_
    simp only []
    split
    · exact .of_map (.recomputeCeilings _ _ _ _)
    · exact .withMap _ _

theorem Records.Upholds.lockRule (o : Origin) (q : Unit) : r.Upholds (lockRule o q r).1 := by
  have hl : ∀ W F, Upheld F (lockHolders W F) := fun W F => by
    obtain ⟨hcars, -, -, hnotices⟩ := lockHolders_kept W F
    exact .of_eq hcars hnotices
  refine assuredOnly_keeps (Q := r.Upholds) (.refl _) ?_
  split
  · exact .refl _
  · split
    · exact .refl _
    · simp only []
      split
      · exact .of_map ((hl _ _).trans (.addHoldAll _ _))
      · exact .of_map (hl _ _)

theorem Records.Upholds.unlockRule (o : Origin) (q : Unit) : r.Upholds (unlockRule o q r).1 := by
  refine assuredOnly_keeps (Q := r.Upholds) (.refl _) ?_
  split
  · exact .refl _
  · split
    · exact .of_eq rfl rfl
    · exact .refl _

theorem Records.Upholds.marksRule (o : Origin) (q : PairBody) : r.Upholds (marksRule o q r).1 := by
  unfold Machine.marksRule
  split
  · simp only []
    split <;> exact .refl _
  · exact .refl _

/-! #### Carriages, warrants and holds -/

/-- A configuration taken has a threshold of 2 or more (R23, R26). -/
theorem setCarInRange_threshold {q : SetCarBody} (h : setCarInRange q = true) : 2 ≤ q.threshold := by
  simp only [setCarInRange, Bool.and_eq_true, decide_eq_true_eq] at h
  omega

theorem Records.Upholds.setcarRule (o : Origin) (q : SetCarBody) : r.Upholds (setcarRule o q r).1 := by
  refine lockFirst_keeps (Q := r.Upholds) (.refl _) fun _ => ?_
  split
  · split
    · exact .refl _
    · split
      · exact .refl _
      · rename_i hq
        have ht : 2 ≤ q.threshold := setCarInRange_threshold (by simpa using hq)
        split
        · exact .refl _
        · exact .of_fleet (.modCar _ _ (.configured _ (Nat.lt_of_lt_of_le Nat.zero_lt_two ht)))
  · exact .refl _

theorem Records.Upholds.setcarNoRule (o : Origin) (q : Nat) : r.Upholds (setcarNoRule o q r).1 := by
  refine lockFirst_keeps (Q := r.Upholds) (.refl _) fun _ => ?_
  split
  · exact .of_fleet (.modCar _ _ (f := fun _ => Carriage.initial) (.initial _))
  · exact .refl _

theorem Records.Upholds.reportRule (o : Origin) (q : ReportBody) : r.Upholds (reportRule o q r).1 := by
  unfold Machine.reportRule
  split
  · exact .refl _
  · split
    · exact .of_fleet (.takeReport _ _ _ _ _)
    · exact .refl _

theorem Records.Upholds.askRule (o : Origin) (q : AskBody) : r.Upholds (askRule o q r).1 := by
  unfold Machine.askRule
  split
  · split
    · exact .refl _
    · split
      · exact .refl _
      · split
        · exact .refl _
        · rename_i hr _
          unfold askWalk
          simp only []
          split
          · split
            · exact .of_fleet (.grant (stack_room_of_askRefusal hr) _ _ _ _ _ _)
            · exact .refl _
          · exact .refl _
          · exact .refl _
        · exact .refl _
  · exact .refl _

theorem Records.Upholds.confirmRule (o : Origin) (q : HandleBody) : r.Upholds (confirmRule o q r).1 := by
  refine withHandle_keeps (Q := r.Upholds) (.refl _) fun i w _ => ?_
  split
  · exact .refl _
  · exact .of_fleet (.modWarrant _ _ _)

theorem Records.Upholds.holdRule (o : Origin) (q : Nat) : r.Upholds (holdRule o q r).1 := by
  unfold Machine.holdRule
  split
  · exact .refl _
  · exact .of_fleet (.addHoldAll _ _)
  · split
    · exact .of_fleet (.addHold _ _ _)
    · exact .refl _

/-- No `unhold` names the cause TRIP (R152). -/
theorem unholdCause_ne_trip {o : Origin} {n : Nat} {x : Cause} (h : unholdCause o n = some x) : x ≠ .trip := by
  rintro rfl
  unfold unholdCause at h
  split at h
  · cases o <;> cases h
  · cases h
  · cases h

theorem Records.Upholds.unholdRule (o : Origin) (q : PairBody) : r.Upholds (unholdRule o q r).1 := by
  unfold Machine.unholdRule
  split
  · rename_i hx
    have hne := unholdCause_ne_trip hx
    split
    · exact .refl _
    · split
      · exact .refl _
      · split
        · exact .refl _
        · unfold unholdTarget
          split
          · exact .of_fleet (.releaseHold _ fun e => absurd e hne)
          · exact .of_fleet (.releaseHoldAll _ _ hne)
  · exact .refl _

theorem Records.Upholds.clearRule (o : Origin) (q : Nat) : r.Upholds (clearRule o q r).1 := by
  unfold Machine.clearRule
  split
  · exact .refl _
  · split
    · exact .refl _
    · exact .of_fleet (.clearTrip _ _ _)

theorem Records.Upholds.restoreRule (o : Origin) (q : Nat) : r.Upholds (restoreRule o q r).1 := by
  refine assuredOnly_keeps (Q := r.Upholds) (.refl _) ?_
  split
  · exact .refl _
  · split
    · exact .of_fleet (.modCar _ _ (f := fun k => { k with level := 0, tripCount := 0 }) (.recount (Nat.zero_le _)))
    · exact .refl _

/-! #### Conditions, wind and notices -/

theorem Records.Upholds.changeCondition (n : CondId) (v : Bool) (r : Records) : r.Upholds (changeCondition n v r) := by
  unfold Machine.changeCondition
  split
  · exact .refl _
  · simp only []
    split
    · exact .of_fleet (.raise _ _)
    · exact .of_fleet ((Upheld.raise _ _).trans (.cutToUnit _ _ _))

theorem Records.Upholds.takeWindTimeout (r : Records) : r.Upholds (takeWindTimeout r) := by
  unfold Machine.takeWindTimeout
  split
  · exact .of_fleet (.windChanged _ _ _)
  · exact .refl _

theorem Records.Upholds.estopRecords (r : Records) : r.Upholds (estopRecords r) :=
  (((Upheld.addHoldAll _ _).trans (.cutForEstop _ _)).trans (.raiseCuts _ _ _)).trans (.raise _ _)

theorem Records.Upholds.noticesRule (o : Origin) (q : Unit) (r : Records) : r.Upholds (noticesRule o q r).1 := by
  refine .of_notices rfl fun n => ?_
  simp only [Machine.noticesRule, Fin.getElem_fin, Vector.getElem_map, Notice.collect]
  split
  · exact Nat.zero_le _
  · exact le_rfl

theorem Upheld.putMasks (F : Fleet) (masks : List Bool) : Upheld F { F with notices := putMasks F.notices masks } :=
  .of_notices rfl fun n => by simp [Machine.putMasks]

theorem Records.Upholds.peekRule (o : Origin) (q : TripleBody) (r : Records) : r.Upholds (peekRule o q r).1 := by
  unfold Machine.peekRule
  split <;> exact .refl _

end Rules

/-- A law of the fleet that a start meets and `Upheld` carries, every command keeps. -/
theorem RecordsLaw.of_upheld {P : Fleet → Prop} (start : P Fleet.initial)
    (hP : ∀ F G : Fleet, Upheld F G → P F → P G) : RecordsLaw (fun r => P r.fleet) :=
  have keep : ∀ {r r' : Records}, r.Upholds r' → P r.fleet → P r'.fleet := hP _ _
  have handled : ∀ {o : Origin} {a b x : Nat} {r : Records} {f : SlotId → Warrant → Fleet × Answer},
      (∀ i w, Upheld r.fleet (f i w).1) → P r.fleet →
      P (withHandle o a b x r fun i w => ({ r with fleet := (f i w).1 }, (f i w).2)).1.fleet := fun hf h =>
    withHandle_keeps (Q := fun r => P r.fleet) h fun i w _ => hP _ _ (hf i w) h
  { raise := fun _ d => hP _ _ (.raise _ d)
    start := fun _ _ => start
    tick := fun _ => id
    report := fun o q _ => keep (.reportRule o q)
    ask := fun o q _ => keep (.askRule o q)
    extend := fun _ _ _ => handled fun _ _ => .extendWarrant _ _ _ _ _
    trim := fun _ _ _ => handled fun _ _ => .trimWarrant _ _ _ _ _
    release := fun _ _ _ => handled fun _ _ => .releaseWarrant _ _ _ _
    confirm := fun o q _ => keep (.confirmRule o q)
    hold := fun o q _ => keep (.holdRule o q)
    unhold := fun o q _ => keep (.unholdRule o q)
    clear := fun o q _ => keep (.clearRule o q)
    wind := fun _ _ _ => hP _ _ (.windChanged _ _ _)
    peek := fun o q r => keep (.peekRule o q r)
    notices := fun o q r => keep (.noticesRule o q r)
    marks := fun o q _ => keep (.marksRule o q)
    setrun := fun o q _ => keep (.setrunRule o q)
    setbay := fun o q _ => keep (.setbayRule o q)
    truncate := fun o q _ => keep (.truncateRule o q)
    setzone := fun o q _ => keep (.setzoneRule o q)
    setcar := fun o q _ => keep (.setcarRule o q)
    setcarNo := fun o q _ => keep (.setcarNoRule o q)
    lock := fun o q _ => keep (.lockRule o q)
    unlock := fun o q _ => keep (.unlockRule o q)
    service := fun o q _ => keep (.serviceRule o q)
    ceiling := fun o q _ => keep (.ceilingRule o q)
    setwind := fun _ _ r h => assuredOnly_keeps (Q := fun r => P r.fleet) h (by split <;> exact h)
    cond := fun _ _ r h => assuredOnly_keeps (Q := fun r => P r.fleet) h (by
      split
      · split
        · exact keep (.changeCondition _ _ r) h
        · exact h
      · exact h)
    mask := fun _ q r h => assuredOnly_keeps (Q := fun r => P r.fleet) h (hP _ _ (.putMasks r.fleet q) h)
    maint := fun _ _ r h => assuredOnly_keeps (Q := fun r => P r.fleet) h (by
      split
      · exact h
      · split <;> exact h)
    endmaint := fun _ _ r h => assuredOnly_keeps (Q := fun r => P r.fleet) h (by split <;> exact h)
    restore := fun o q _ => keep (.restoreRule o q)
    restart := fun _ _ r h => assuredOnly_keeps (Q := fun r => P r.fleet) h (hP _ _ (.restartFleet _ _) h)
    estop := fun r => keep (.estopRecords r)
    estopLine := fun _ _ => id
    keyReleased := fun _ => hP _ _ (.cutForKey _ _)
    key := fun _ _ => id
    storm := fun _ => hP _ _ (.windChanged _ _ _)
    windTimeout := fun r => keep (.takeWindTimeout r)
    windLine := fun _ _ _ => id
    condition := fun n v r => keep (.changeCondition n v r)
    conditionLine := fun _ _ _ => id
    mute := fun _ c => hP _ _ (.becomeMute _ c)
    expire := fun _ i => hP _ _ (.expire _ _ i) }

theorem initial_car (c : CarId) : Fleet.initial.cars[c] = Carriage.initial := by simp [Fleet.initial]

/-- R155, R156 of every record. -/
theorem trip_law : RecordsLaw (fun r => ∀ c : CarId, (r.fleet.cars[c]).TripLawful) :=
  .of_upheld (P := fun F => ∀ c : CarId, (F.cars[c]).TripLawful)
    (fun c => by rw [initial_car]; exact ⟨by simp [Carriage.initial], nofun⟩)
    fun _ _ h hF c => (h.cars c).trip (hF c)

/-- R157 of every record. -/
theorem downshift_law : RecordsLaw (fun r => ∀ c : CarId, (r.fleet.cars[c]).CountLawful) :=
  .of_upheld (P := fun F => ∀ c : CarId, (F.cars[c]).CountLawful)
    (fun c => by rw [initial_car]; exact ⟨by decide, by decide⟩)
    fun _ _ h hF c => (h.cars c).count (hF c)

/-- R116 of every stack. -/
theorem stack_law : RecordsLaw (fun r => ∀ c : CarId, (r.fleet.cars[c]).stack.length ≤ 3) :=
  .of_upheld (P := fun F => ∀ c : CarId, (F.cars[c]).stack.length ≤ 3)
    (fun c => by rw [initial_car]; exact Nat.zero_le 3)
    fun _ _ h hF c => (h.cars c).stack (hF c)

/-- R164, R166 of every kind. -/
theorem notice_law : RecordsLaw (fun r => ∀ n : Fin 15, (r.fleet.notices[n]).count ≤ 255) :=
  .of_upheld (P := fun F => ∀ n : Fin 15, (F.notices[n]).count ≤ 255)
    (fun n => by simp [Fleet.initial, Notice.initial])
    fun _ _ h hF n => h.notices n (hF n)

end Sys2Proof.Machine

open Sys2Proof.Machine in
/-- Settles O12: what every operation upholds of a carriage's record and of a notice's count, every command keeps. -/
theorem tripsAndCountersKept : Obligations.TripsAndCountersKept := by
  intro s t ht
  exact ⟨trip_law.step ht, downshift_law.step ht, stack_law.step ht, notice_law.step ht⟩
end
